-- ==== Sys2Proof/Word.lean ====
section
/-! DEFINITION. The bit vectors of the machine (spec/00_scope.md R6, R7): every register, memory cell and opcode
field is an unsigned integer of a fixed width. -/

namespace Sys2Proof

/-- A general register, a timer, a byte of RAM or of VRAM, an immediate KK (R6, R61). -/
abbrev Byte := BitVec 8

/-- PC, I, a stack entry, an opcode (R6, R60). -/
abbrev Word := BitVec 16

/-- A 4-bit opcode field: a register index X or Y, a row count N, a family T (R61). -/
abbrev Nibble := BitVec 4

/-- A 12-bit address field NNN (R61). -/
abbrev Addr := BitVec 12

/-- The index of VF, the flag register (R11). -/
abbrev vf : Nibble := 0xF#4

/-- `zext_16` of R7. -/
def Word.ofAddr (nnn : Addr) : Word := nnn.setWidth 16

/-- `zext_16` of R7. -/
def Word.ofByte (b : Byte) : Word := b.setWidth 16

end Sys2Proof
end

