-- ==== Sys2Proof/Syntax.lean ====
section
/-! DEFINITION. The instructions: one constructor per row of spec/opcode_table.json (spec/30_encoding.md R65), with
the operands its format gives it (R62). Every operand has exactly the width of its field, so that R63 ("all 16 values
are legal", KK 0 to 255, NNN 0 to 4095, N 0 to 15) is in the types. -/

namespace Sys2Proof

/-- The 34 instructions (R2, R65). -/
inductive Instr where
  /-- 00E0 `CLS` (R80). -/
  | cls
  /-- 00EE `RTS` (R81). -/
  | rts
  /-- 1NNN `JMP $nnn` (R82). -/
  | jmp (nnn : Addr)
  /-- 2NNN `JSR $nnn` (R83). -/
  | jsr (nnn : Addr)
  /-- 3XKK `SKEQ Vx,$kk` (R90). -/
  | skeqImm (x : Nibble) (kk : Byte)
  /-- 4XKK `SKNE Vx,$kk` (R91). -/
  | skneImm (x : Nibble) (kk : Byte)
  /-- 5XY0 `SKEQ Vx,Vy` (R92). -/
  | skeqReg (x y : Nibble)
  /-- 6XKK `MOV Vx,$kk` (R100). -/
  | movImm (x : Nibble) (kk : Byte)
  /-- 7XKK `ADD Vx,$kk` (R101). -/
  | addImm (x : Nibble) (kk : Byte)
  /-- 8XY0 `MOV Vx,Vy` (R106). -/
  | movReg (x y : Nibble)
  /-- 8XY1 `OR Vx,Vy` (R107). -/
  | orReg (x y : Nibble)
  /-- 8XY2 `AND Vx,Vy` (R108). -/
  | andReg (x y : Nibble)
  /-- 8XY3 `XOR Vx,Vy` (R109). -/
  | xorReg (x y : Nibble)
  /-- 8XY4 `ADD Vx,Vy` (R110). -/
  | addReg (x y : Nibble)
  /-- 8XY5 `SUB Vx,Vy` (R111). -/
  | subReg (x y : Nibble)
  /-- 8XY6 `SHR Vx` (R112); the Y field is kept and never read (R67). -/
  | shr (x y : Nibble)
  /-- 8XY7 `RSB Vx,Vy` (R113). -/
  | rsb (x y : Nibble)
  /-- 8XYE `SHL Vx` (R114); the Y field is kept and never read (R67). -/
  | shl (x y : Nibble)
  /-- 9XY0 `SKNE Vx,Vy` (R93). -/
  | skneReg (x y : Nibble)
  /-- ANNN `MVI $nnn` (R120). -/
  | mvi (nnn : Addr)
  /-- BNNN `JMI $nnn` (R121). -/
  | jmi (nnn : Addr)
  /-- CXKK `RAND Vx,$kk` (R122). -/
  | rand (x : Nibble) (kk : Byte)
  /-- DXYN `SPRITE Vx,Vy,$n` (R125). -/
  | sprite (x y n : Nibble)
  /-- EX9E `SKPR Vx` (R135). -/
  | skpr (x : Nibble)
  /-- EXA1 `SKUP Vx` (R136). -/
  | skup (x : Nibble)
  /-- FX07 `GDELAY Vx` (R140). -/
  | gdelay (x : Nibble)
  /-- FX0A `KEY Vx` (R141). -/
  | key (x : Nibble)
  /-- FX15 `SDELAY Vx` (R142). -/
  | sdelay (x : Nibble)
  /-- FX18 `SSOUND Vx` (R143). -/
  | ssound (x : Nibble)
  /-- FX1E `ADI Vx` (R144). -/
  | adi (x : Nibble)
  /-- FX29 `FONT Vx` (R145). -/
  | font (x : Nibble)
  /-- FX33 `BCD Vx` (R147). -/
  | bcd (x : Nibble)
  /-- FX55 `STR V0-Vx` (R148). -/
  | str (x : Nibble)
  /-- FX65 `LDR V0-Vx` (R149). -/
  | ldr (x : Nibble)
  deriving DecidableEq, Repr

end Sys2Proof
end

