-- ==== Sys2Proof/Decode.lean ====
section
/-! DEFINITION. The two-level decoder (spec/30_encoding.md R64), the encoder written from the same map (R62, R65),
and the order of an instruction's bytes (R44, R60). -/

namespace Sys2Proof

/-- `T = op[15:12]`, the family (R61). -/
def fieldT (op : Word) : Nibble := op.extractLsb' 12 4

/-- `X = op[11:8]` (R61). -/
def fieldX (op : Word) : Nibble := op.extractLsb' 8 4

/-- `Y = op[7:4]` (R61). -/
def fieldY (op : Word) : Nibble := op.extractLsb' 4 4

/-- `N = op[3:0]` (R61). -/
def fieldN (op : Word) : Nibble := op.extractLsb' 0 4

/-- `KK = op[7:0]` (R61). -/
def fieldKK (op : Word) : Byte := op.extractLsb' 0 8

/-- `NNN = op[11:0]` (R61). -/
def fieldNNN (op : Word) : Addr := op.extractLsb' 0 12

/-- Why a word is no instruction: the five sets of R66, and bytes too few to hold a word (R60). -/
inductive DecodeReject where
  /-- R66 (a): 0x0000 to 0x0FFF other than 00E0 and 00EE. -/
  | unknownSystem
  /-- R66 (b): 5XYN or 9XYN with N not 0. -/
  | unknownSkip
  /-- R66 (c): 8XYN with an unlisted N. -/
  | unknownAlu
  /-- R66 (d): EXKK with an unlisted KK. -/
  | unknownKey
  /-- R66 (e): FXKK with an unlisted KK. -/
  | unknownMisc
  /-- Fewer than two bytes (R60). -/
  | tooShort
  deriving DecidableEq, Repr

/-- Second level of family 0x0: the whole opcode is compared (R64, R84). -/
def decodeSystem (op : Word) : Except DecodeReject Instr :=
  if op = 0x00E0#16 then .ok .cls
  else if op = 0x00EE#16 then .ok .rts
  else .error .unknownSystem

/-- Second level of family 0x5: N must be 0 (R64, R94). -/
def decodeSkeqReg (op : Word) : Except DecodeReject Instr :=
  if fieldN op = 0x0#4 then .ok (.skeqReg (fieldX op) (fieldY op)) else .error .unknownSkip

/-- Second level of family 0x9: N must be 0 (R64, R94). -/
def decodeSkneReg (op : Word) : Except DecodeReject Instr :=
  if fieldN op = 0x0#4 then .ok (.skneReg (fieldX op) (fieldY op)) else .error .unknownSkip

/-- Second level of family 0x8: the low nibble selects (R64, R105, R115). -/
def decodeAlu (op : Word) : Except DecodeReject Instr :=
  match (fieldN op).toNat with
  | 0x0 => .ok (.movReg (fieldX op) (fieldY op))
  | 0x1 => .ok (.orReg (fieldX op) (fieldY op))
  | 0x2 => .ok (.andReg (fieldX op) (fieldY op))
  | 0x3 => .ok (.xorReg (fieldX op) (fieldY op))
  | 0x4 => .ok (.addReg (fieldX op) (fieldY op))
  | 0x5 => .ok (.subReg (fieldX op) (fieldY op))
  | 0x6 => .ok (.shr (fieldX op) (fieldY op))
  | 0x7 => .ok (.rsb (fieldX op) (fieldY op))
  | 0xE => .ok (.shl (fieldX op) (fieldY op))
  | _ => .error .unknownAlu

/-- Second level of family 0xE: the low byte selects (R64, R137). -/
def decodeKey (op : Word) : Except DecodeReject Instr :=
  match (fieldKK op).toNat with
  | 0x9E => .ok (.skpr (fieldX op))
  | 0xA1 => .ok (.skup (fieldX op))
  | _ => .error .unknownKey

/-- Second level of family 0xF: the whole low byte selects (R64, R146). -/
def decodeMisc (op : Word) : Except DecodeReject Instr :=
  match (fieldKK op).toNat with
  | 0x07 => .ok (.gdelay (fieldX op))
  | 0x0A => .ok (.key (fieldX op))
  | 0x15 => .ok (.sdelay (fieldX op))
  | 0x18 => .ok (.ssound (fieldX op))
  | 0x1E => .ok (.adi (fieldX op))
  | 0x29 => .ok (.font (fieldX op))
  | 0x33 => .ok (.bcd (fieldX op))
  | 0x55 => .ok (.str (fieldX op))
  | 0x65 => .ok (.ldr (fieldX op))
  | _ => .error .unknownMisc

/-- The instruction a word is, or why it is none: first level on the top nibble (R64). -/
def decodeWord (op : Word) : Except DecodeReject Instr :=
  match (fieldT op).toNat with
  | 0x0 => decodeSystem op
  | 0x1 => .ok (.jmp (fieldNNN op))
  | 0x2 => .ok (.jsr (fieldNNN op))
  | 0x3 => .ok (.skeqImm (fieldX op) (fieldKK op))
  | 0x4 => .ok (.skneImm (fieldX op) (fieldKK op))
  | 0x5 => decodeSkeqReg op
  | 0x6 => .ok (.movImm (fieldX op) (fieldKK op))
  | 0x7 => .ok (.addImm (fieldX op) (fieldKK op))
  | 0x8 => decodeAlu op
  | 0x9 => decodeSkneReg op
  | 0xA => .ok (.mvi (fieldNNN op))
  | 0xB => .ok (.jmi (fieldNNN op))
  | 0xC => .ok (.rand (fieldX op) (fieldKK op))
  | 0xD => .ok (.sprite (fieldX op) (fieldY op) (fieldN op))
  | 0xE => decodeKey op
  | _ => decodeMisc op

/-- Two bytes as an opcode, the high byte first (R44, R60). -/
def wordOfBytes (hi lo : Byte) : Word := hi ++ lo

/-- The byte of an opcode that lies at the lower address (R44, R60). -/
def highByte (op : Word) : Byte := op.extractLsb' 8 8

/-- The byte of an opcode that lies at the higher address (R44, R60). -/
def lowByte (op : Word) : Byte := op.extractLsb' 0 8

/-- An instruction off the front of a list of bytes, with the bytes that follow it; total on any bytes (R60). -/
def decode : List Byte → Except DecodeReject (Instr × List Byte)
  | hi :: lo :: rest =>
    match decodeWord (wordOfBytes hi lo) with
    | .ok i => .ok (i, rest)
    | .error r => .error r
  | _ => .error .tooShort

/-- Format NNN (R62). -/
def encodeNNN (t : Nibble) (nnn : Addr) : Word := t ++ nnn

/-- Format XKK (R62). -/
def encodeXKK (t x : Nibble) (kk : Byte) : Word := t ++ x ++ kk

/-- Formats XY and XYN (R62). -/
def encodeXYN (t x y n : Nibble) : Word := t ++ x ++ y ++ n

/-- The word of an instruction (R65). -/
def encode : Instr → Word
  | .cls => 0x00E0#16
  | .rts => 0x00EE#16
  | .jmp nnn => encodeNNN 0x1#4 nnn
  | .jsr nnn => encodeNNN 0x2#4 nnn
  | .skeqImm x kk => encodeXKK 0x3#4 x kk
  | .skneImm x kk => encodeXKK 0x4#4 x kk
  | .skeqReg x y => encodeXYN 0x5#4 x y 0x0#4
  | .movImm x kk => encodeXKK 0x6#4 x kk
  | .addImm x kk => encodeXKK 0x7#4 x kk
  | .movReg x y => encodeXYN 0x8#4 x y 0x0#4
  | .orReg x y => encodeXYN 0x8#4 x y 0x1#4
  | .andReg x y => encodeXYN 0x8#4 x y 0x2#4
  | .xorReg x y => encodeXYN 0x8#4 x y 0x3#4
  | .addReg x y => encodeXYN 0x8#4 x y 0x4#4
  | .subReg x y => encodeXYN 0x8#4 x y 0x5#4
  | .shr x y => encodeXYN 0x8#4 x y 0x6#4
  | .rsb x y => encodeXYN 0x8#4 x y 0x7#4
  | .shl x y => encodeXYN 0x8#4 x y 0xE#4
  | .skneReg x y => encodeXYN 0x9#4 x y 0x0#4
  | .mvi nnn => encodeNNN 0xA#4 nnn
  | .jmi nnn => encodeNNN 0xB#4 nnn
  | .rand x kk => encodeXKK 0xC#4 x kk
  | .sprite x y n => encodeXYN 0xD#4 x y n
  | .skpr x => encodeXKK 0xE#4 x 0x9E#8
  | .skup x => encodeXKK 0xE#4 x 0xA1#8
  | .gdelay x => encodeXKK 0xF#4 x 0x07#8
  | .key x => encodeXKK 0xF#4 x 0x0A#8
  | .sdelay x => encodeXKK 0xF#4 x 0x15#8
  | .ssound x => encodeXKK 0xF#4 x 0x18#8
  | .adi x => encodeXKK 0xF#4 x 0x1E#8
  | .font x => encodeXKK 0xF#4 x 0x29#8
  | .bcd x => encodeXKK 0xF#4 x 0x33#8
  | .str x => encodeXKK 0xF#4 x 0x55#8
  | .ldr x => encodeXKK 0xF#4 x 0x65#8

/-- The two bytes of an instruction as they lie in RAM (R60). -/
def encodeBytes (i : Instr) : List Byte := [highByte (encode i), lowByte (encode i)]

/-- The opcode whose bits spec/opcode_table.json numbers: bit 0 of `w` is bit 0 of the word, the bits from `nbits` on
are 0 (every row of the table is one 16-bit word). -/
def tableWord (nbits w : Nat) : Word := BitVec.ofNat 16 (w % 2 ^ nbits)

/-- The instruction the decoder reads from the two bytes of a table row's word, laid out as the hardware stores them. -/
def decodeTableWord (nbits w : Nat) : Option Instr :=
  match decode [highByte (tableWord nbits w), lowByte (tableWord nbits w)] with
  | .ok (i, _) => some i
  | .error _ => none

end Sys2Proof
end

