-- ==== Sys2Proof/Config.lean ====
section
/-! DEFINITION. What is fixed for the hardware (spec/00_scope.md R6), the inputs the outside gives the block
(spec/50_execution_loop.md R156, R170), and the free values: constants without a body, which no proof can evaluate. -/

namespace Sys2Proof

/-- `RAM_SIZE`: bytes of RAM, addresses 0x000 to 0xFFF (R6). -/
abbrev Config.ramSize : Nat := 4096

/-- `FONT_BASE` (R6). -/
abbrev Config.fontBase : Nat := 0x000

/-- `FONT_GLYPH_BYTES` (R6). -/
abbrev Config.fontGlyphBytes : Nat := 5

/-- Bytes of `FONT`: 16 glyphs (R6, R41). -/
abbrev Config.fontBytes : Nat := 80

/-- `PROGRAM_BASE`: the reset value of PC and the load address of the program (R6). -/
abbrev Config.programBase : Nat := 0x200

/-- The greatest length of a program the loader may load (R167). -/
abbrev Config.programMax : Nat := 3584

/-- `SCREEN_W` (R6). -/
abbrev Config.screenW : Nat := 64

/-- `SCREEN_H` (R6). -/
abbrev Config.screenH : Nat := 32

/-- `PIXEL_BYTES` (R6). -/
abbrev Config.pixelBytes : Nat := 3

/-- `VRAM_SIZE` (R6). -/
abbrev Config.vramSize : Nat := 6144

/-- The parameters that R6 marks as arguments of a model and that an instruction depends on. They are a field of
State, which no step changes; the other arguments of R6 are inputs of the machine (log 6). -/
structure Parameters where
  /-- `REGBLOCK_BIAS`: added to I by FX55 and FX65 (R6, decision D12). -/
  regblockBias : Nat
  /-- `SPRITE_WRAP_INCLUSIVE`: a coordinate wraps when `>=` the grid size, or only when `>` (R6, R126, decision D9). -/
  spriteWrapInclusive : Bool
  deriving DecidableEq, Repr

/-- The values of this hardware: `REGBLOCK_BIAS = 0x200`, `SPRITE_WRAP_INCLUSIVE = true` (R6). -/
abbrev Config.hardware : Parameters := ⟨0x200, true⟩

/-- `STACK_MAX_DEPTH`: the greatest number of return addresses held at once (R6, R22). -/
abbrev Config.stackMaxDepth : Nat := 15

/-- The three things a Run request wants attached (R156, R157). -/
inductive Port where
  | ram
  | vram
  | display
  deriving DecidableEq, Repr, Inhabited

/-- One input of the block: a move of the host (the rows of the table of R170) or one loop iteration with the inputs
it samples (R156, R158). -/
inductive HostInput where
  /-- One loop iteration: whether the timer cadence and the instruction cadence fire in it, whether a stop request
  arrives in it (typically inside `present`, R162), and the random byte a CXKK of it samples (R122). -/
  | iterate (tickTmr tickCpu stopReq : Bool) (rnd : Byte)
  /-- A stop request between two iterations, or while Stopped (R162). -/
  | stopRequest
  /-- The Run entry point (R157). -/
  | runRequest
  /-- The reset entry point (R165, R195). -/
  | resetRequest
  /-- One of the three attach operations (R165). There is no move that detaches: R170 forbids one while Running, and
  that there is none while Stopped is the model's choice (DESIGN CHOICE, unsafe; log 11). -/
  | attach (port : Port)
  /-- The loader: `FONT` and the program (R167). -/
  | load (font program : List Byte)
  /-- The host writes one RAM byte before Run (R170, row "load"). -/
  | writeRam (addr : Nat) (b : Byte)
  deriving DecidableEq, Repr, Inhabited

/-- FREE VALUE. What a RAM byte that nothing has written holds: "any value, fixed per launch"
(spec/93_implementation_defined.md U8; log 1). -/
opaque Config.launchRam : Nat → Byte

/-- FREE VALUE. The n-th input that the list of State does not fix: any tick pattern, any stop request, any random
byte, any move of the host (R164, R170; spec/93_implementation_defined.md U6, U13; log 2). -/
opaque Config.freeInput : Nat → HostInput

end Sys2Proof
end

