-- ==== Sys2Proof/Machine/Memory.lean ====
section
/-! DEFINITION. Byte memory as plain data: a list of (address, byte) cells in one canonical form. RAM and VRAM are
both of this type and differ in their size and in what an unlisted address reads as (spec/10_state.md R29, R30). -/

namespace Sys2Proof.Machine

/-- Cells in strictly rising order of address. -/
abbrev Memory := List Host.Cell

/-- The byte listed at an address, none where nothing is listed. -/
def Memory.lookup : Memory → Nat → Option Byte
  | [], _ => none
  | (k, c) :: m, a => if k = a then some c else Memory.lookup m a

/-- List a byte at its place in the order, in the place of the byte listed there before. -/
def Memory.insert : Memory → Nat → Byte → Memory
  | [], a, b => [(a, b)]
  | (k, c) :: m, a, b =>
    if a < k then (a, b) :: (k, c) :: m
    else if a = k then (a, b) :: m
    else (k, c) :: Memory.insert m a b

/-- List nothing at an address. -/
def Memory.erase (m : Memory) (a : Nat) : Memory := m.filter fun cell => cell.1 != a

/-- Write one byte. `unlisted` is what an unlisted address reads as (none: no value); writing that value removes the
cell, so that equal memories are equal data. -/
def Memory.write (unlisted : Option Byte) (m : Memory) (a : Nat) (b : Byte) : Memory :=
  if unlisted = some b then m.erase a else m.insert a b

/-- The canonical form: addresses strictly rising and below the size, no cell equal to what an unlisted address
reads as. -/
abbrev Memory.wf (size : Nat) (unlisted : Option Byte) (m : Memory) : Prop :=
  m.Pairwise (fun p q => p.1 < q.1) ∧ ∀ p ∈ m, p.1 < size ∧ unlisted ≠ some p.2

/-- What an unlisted address of RAM reads as: no value. Reset gives RAM no contents (R29), and State.ramByte answers
the free value Config.launchRam there (spec/93_implementation_defined.md U8; log 1). -/
def ramUnlisted : Option Byte := none

/-- What an unlisted address of VRAM reads as: 0x00, its reset value (R30). -/
def vramUnlisted : Option Byte := some 0x00#8

end Sys2Proof.Machine
end

