-- ==== Sys2Proof/Machine/State.lean ====
section
/-! DEFINITION. Everything the spec gives the machine (spec/10_state.md, its table and R10 to R31), the lines of the
block's interface (spec/50_execution_loop.md R156), and the machine right after reset
(spec/70_reset_and_hazards.md R195, R196). -/

namespace Sys2Proof.Machine

/-- The five causes of a halt (spec/60_exceptions.md R175). -/
inductive HaltCause where
  /-- Raised by dispatch: the opcode matches no row of R65. -/
  | unknownOpcode
  /-- Raised by 2NNN with SP = 15. -/
  | stackOverflow
  /-- Raised by 00EE with SP = 0. -/
  | stackUnderflow
  /-- Raised by fetch, DXYN, FX33, FX55, FX65: a RAM address above 0xFFF. -/
  | addrOutOfRange
  /-- Raised by DXYN: a sprite position outside the grid. -/
  | vramOutOfRange
  deriving DecidableEq, Repr

/-- What ends a run of the model with a fault. A halt itself is a next state (R176); this is what follows it. -/
inductive Fault where
  /-- Raised by `step` alone, when a loop iteration is asked of a machine whose run has ended in a halt: "A model
  treats a halted state as a fault: it is terminal" (R179). Safe: the hardware does nothing more either (R163). -/
  | halted (reason : BitVec 3)
  deriving DecidableEq, Repr

/-- What the model gives no meaning to. -/
inductive Refusal where
  /-- Raised by exec's arm of an instruction that has no meaning yet; no arm raises it now. Safe. -/
  | notModelled (mnemonic : String)
  /-- Raised by `step` on a launch that is not 80 font bytes and a program of at most 3584: "a model refuses such a
  launch" (R167, U11). Safe. -/
  | launchRefused
  /-- Raised by `step` on a load, a host write, an attach or a reset while Running: the host "must not"
  (R170), and R165 gives reset a use of its own only while Stopped. Safe. -/
  | hostMoveWhileRunning
  /-- Raised by `step` on a host write to an address RAM does not have (R40, R170). Safe. -/
  | hostWriteOutsideRam
  deriving DecidableEq, Repr

/-- The three `ATTACHED` flags (R156, R157). -/
structure Attached where
  ram : Bool
  vram : Bool
  display : Bool
  deriving DecidableEq, Repr

/-- The machine. Each field's rule is in INVENTORY.md under "State". -/
structure State where
  /-- `V[0]` to `V[15]` (R10, R11). -/
  v : Vector Byte 16
  /-- `I` (R20). -/
  i : Word
  /-- `PC` (R14). -/
  pc : Word
  /-- `STACK[0]` to `STACK[15]` (R21). -/
  stack : Vector Word 16
  /-- `SP` (R21). -/
  sp : BitVec 4
  /-- `DT` (R24). -/
  dt : Byte
  /-- `ST` (R24). -/
  st : Byte
  /-- `OPCODE`, the last opcode fetched (R25, R27). -/
  opcode : Word
  /-- `RUN`: true is Running (R26). -/
  run : Bool
  /-- `GATE` (R28). -/
  gate : Bool
  /-- `HALT_REASON`, the code of R175, 0 when no halt has happened since reset (R25). -/
  haltReason : BitVec 3
  /-- `HALT_PC` (R25). -/
  haltPc : Word
  /-- `HALT_OPCODE` (R25). -/
  haltOpcode : Word
  /-- `RAM` (R29). -/
  ram : Memory
  /-- `VRAM` (R30). -/
  vram : Memory
  /-- The input `ATTACHED` (R156, R165). -/
  attached : Attached
  /-- The output `present`: raised in the last step (R156, R166). -/
  present : Bool
  /-- The framebuffer as the display collaborator reads it during the `present` of the last step; none when `present`
  was not raised (R54, R166; log 4). -/
  frame : Option Memory
  /-- The output `setup_error`: raised in the last step (R156, R157). -/
  setupError : Bool
  /-- The input `rnd`, as the loop iteration in progress samples it (R156, R122). -/
  rnd : Byte
  /-- The parameters that are arguments of the model: fixed, no step changes them (R6; log 6). -/
  params : Parameters
  /-- The model's own: the inputs the block receives next, oldest first (R170; log 2). -/
  inputs : List HostInput
  /-- The model's own: how many free inputs have been drawn (log 2). -/
  inputNo : Nat
  deriving DecidableEq, Repr

/-- The machine at the moment a successful Run request completes, which has performed the reset (R157, R195, R196):
RUN is 1, every register has the value R196 lists, RAM lists nothing (R29). The machine before any Run is
State.powerOn (log 12). -/
def State.reset : State where
  v := Vector.replicate 16 0x00#8
  i := 0x0000#16
  pc := 0x0200#16
  stack := Vector.replicate 16 0x0000#16
  sp := 0x0#4
  dt := 0x00#8
  st := 0x00#8
  opcode := 0x0000#16
  run := true
  gate := false
  haltReason := 0#3
  haltPc := 0x0000#16
  haltOpcode := 0x0000#16
  ram := []
  vram := []
  attached := ⟨true, true, true⟩
  present := false
  frame := none
  setupError := false
  rnd := 0x00#8
  params := Config.hardware
  inputs := []
  inputNo := 0

end Sys2Proof.Machine
end

