-- ==== Sys2Proof/Machine/Ops.lean ====
section
/-! DEFINITION. The named operations over registers, memories, the stack and the program counter, and the one way an
instruction raises a halt (spec/00_scope.md R8, spec/20_memory.md, spec/60_exceptions.md R176). There is no return
from a halt (R179), so no operation for one. -/

namespace Sys2Proof.Machine

/-- What a meaning answers. -/
abbrev Result := Host.Outcome State Fault Refusal

/-- `V[r]` (R8, R10). -/
def State.reg (s : State) (r : Nibble) : Byte := s.v[r.toNat]'r.isLt

/-- `V[r] <- b` (R8, R10). -/
def State.setReg (s : State) (r : Nibble) (b : Byte) : State := { s with v := s.v.set r.toNat b r.isLt }

/-- `I <- w` (R20). -/
def State.setI (s : State) (w : Word) : State := { s with i := w }

/-- `PC <- w` (R15). -/
def State.setPc (s : State) (w : Word) : State := { s with pc := w }

/-- `PC <- (PC + 2) mod 65536` (R8, R15). -/
def State.advance (s : State) : State := s.setPc (s.pc + 2#16)

/-- `PC <- (PC + 4) mod 65536`: the next instruction is skipped (R15, R95). -/
def State.skip (s : State) : State := s.setPc (s.pc + 4#16)

/-- `DT <- b` (R24). -/
def State.setDt (s : State) (b : Byte) : State := { s with dt := b }

/-- `ST <- b` (R24). -/
def State.setSt (s : State) (b : Byte) : State := { s with st := b }

/-- The code of a cause (R175). -/
def HaltCause.code : HaltCause → BitVec 3
  | .unknownOpcode => 1#3
  | .stackOverflow => 2#3
  | .stackUnderflow => 3#3
  | .addrOutOfRange => 4#3
  | .vramOutOfRange => 5#3

/-- Halt entry: `HALT_REASON`, `HALT_PC`, `HALT_OPCODE` and `RUN` are written, and nothing else (R176). -/
def State.halt (s : State) (cause : HaltCause) : State :=
  { s with haltReason := cause.code, haltPc := s.pc, haltOpcode := s.opcode, run := false }

/-- `raise Halt(reason)` abandons the instruction with no other state change and performs the halt entry
(R8, R177); an instruction that raises nothing goes on to its own next state. -/
def State.orHalt (s : State) : Except HaltCause State → Result
  | .ok t => .next t
  | .error cause => .next (s.halt cause)

/-- The address is one of RAM's, 0x000 to 0xFFF: the check of `MemRead` and `MemWrite`, which an instruction makes for
all of its addresses before it performs any write or changes any register (R40, R43). -/
def inRam (a : Nat) : Bool := a < Config.ramSize

/-- The byte RAM holds at an address; where nothing has been written, the launch's byte (R29, U8). -/
def State.ramByte (s : State) (a : Nat) : Byte := (s.ram.lookup a).getD (Config.launchRam a)

/-- RAM with one byte written; an address RAM does not have changes nothing (every caller checks first, R43). -/
def State.setRamByte (s : State) (a : Nat) (b : Byte) : State :=
  if inRam a then { s with ram := s.ram.write ramUnlisted a b } else s

/-- `MemRead(addr, 2)`, high byte first, used by fetch alone (R43, R44). -/
def State.memReadWord (s : State) (a : Nat) : Except HaltCause Word :=
  if inRam (a + 1) then .ok (wordOfBytes (s.ramByte a) (s.ramByte (a + 1))) else .error .addrOutOfRange

/-- Bytes written at rising addresses, one after another (R44). -/
def State.setRamBytes (s : State) (a : Nat) : List Byte → State
  | [] => s
  | b :: bs => State.setRamBytes (s.setRamByte a b) (a + 1) bs

/-- The byte of VRAM at an offset (R30). -/
def Memory.vramByte (m : Memory) (k : Nat) : Byte := (m.lookup k).getD 0x00#8

/-- VRAM with one byte written. -/
def Memory.setVramByte (m : Memory) (k : Nat) (b : Byte) : Memory := m.write vramUnlisted k b

/-- `VRAM[k]` (R30). -/
def State.vramByte (s : State) (k : Nat) : Byte := s.vram.vramByte k

/-- The offset of the first byte of pixel (x, y): row-major, three bytes a pixel (R47). -/
def pixOffset (x y : Nat) : Nat := Config.pixelBytes * (Config.screenW * y + x)

/-- `PixRead(x, y)`: lit when the first byte is not 0 (R48). -/
def Memory.pixRead (m : Memory) (x y : Nat) : Bool := m.vramByte (pixOffset x y) != 0x00#8

/-- `PIXEL_ON` or `PIXEL_OFF` (R6). -/
def pixelByte (lit : Bool) : Byte := if lit then 0xFF#8 else 0x00#8

/-- `PixWrite(x, y, b)`: all three bytes become 255 or 0 (R48). -/
def Memory.pixWrite (m : Memory) (x y : Nat) (lit : Bool) : Memory :=
  ((m.setVramByte (pixOffset x y) (pixelByte lit)).setVramByte (pixOffset x y + 1) (pixelByte lit)).setVramByte
    (pixOffset x y + 2) (pixelByte lit)

/-- `VRAM[k] <- 0x00` for every k (R80, R195). -/
def State.clearVram (s : State) : State := { s with vram := [] }

/-- Push a return address (R22). -/
def State.push (s : State) (ret : Word) : Except HaltCause State :=
  if s.sp.toNat = Config.stackMaxDepth then .error .stackOverflow
  else .ok { s with stack := s.stack.set s.sp.toNat ret s.sp.isLt, sp := s.sp + 1#4 }

/-- Pop a return address into PC; the slot keeps its contents (R22, R81). -/
def State.pop (s : State) : Except HaltCause State :=
  if s.sp = 0#4 then .error .stackUnderflow
  else .ok { s with sp := s.sp - 1#4, pc := s.stack[(s.sp - 1#4).toNat]'(s.sp - 1#4).isLt }

end Sys2Proof.Machine
end

