-- ==== Sys2Proof/Machine/Flags.lean ====
section
/-! DEFINITION. Every value the machine writes to VF as a flag: 0x01 or 0x00 (spec/10_state.md R19,
spec/43_alu_8.md R117), and the order of the two writes of a flag-writing instruction (R105). -/

namespace Sys2Proof.Machine

/-- A flag as the byte VF receives (R19). -/
def flagByte (set : Bool) : Byte := if set then 0x01#8 else 0x00#8

/-- Carry of `a + b`: the untruncated sum exceeds 255 (R110). -/
def carryFlag (a b : Byte) : Byte := flagByte (decide (a.toNat + b.toNat > 255))

/-- Not-borrow of `a - b`: `a >= b` before the subtraction (R111, R113). -/
def notBorrowFlag (a b : Byte) : Byte := flagByte (decide (a.toNat ≥ b.toNat))

/-- The bit a right shift drops (R112). -/
def lowBitFlag (a : Byte) : Byte := a &&& 0x01#8

/-- The bit a left shift drops, as the number 0 or 1 (R114, D26). -/
def highBitFlag (a : Byte) : Byte := a >>> 7

/-- First `VF <- flag`, then `V[X] <- result`, so that with X = F the result stays (R105). -/
def State.writeFlagged (s : State) (x : Nibble) (flag result : Byte) : State := (s.setReg vf flag).setReg x result

end Sys2Proof.Machine
end

