-- ==== Sys2Proof/Machine/Operands.lean ====
section
/-! DEFINITION. How the operands of an instruction become addresses and coordinates: natural numbers, never wrapped
and never masked (spec/20_memory.md R42), and the coordinate wrap of sprites (spec/45_sprite_D.md R126, R127). -/

namespace Sys2Proof.Machine

/-- The address `I + off` (R42, R49). -/
def State.dataAddr (s : State) (off : Nat) : Nat := s.i.toNat + off

/-- The base of a register block: `REGBLOCK_BIAS + I` (R148, R149). -/
def State.blockBase (s : State) : Nat := s.params.regblockBias + s.i.toNat

/-- The address of a font glyph: the low nibble of VX selects it (R145). -/
def glyphAddr (b : Byte) : Word :=
  BitVec.ofNat 16 (Config.fontBase + Config.fontGlyphBytes * (b &&& 0x0F#8).toNat)

/-- The target of JMI: `(zext_16(NNN) + zext_16(V[0])) mod 65536` (R121). -/
def State.indexedTarget (s : State) (nnn : Addr) : Word := Word.ofAddr nnn + Word.ofByte (s.reg 0x0#4)

/-- A coordinate after the one conditional subtract; `inclusive` is `SPRITE_WRAP_INCLUSIVE` (R126). -/
def wrapCoord (inclusive : Bool) (size u : Nat) : Nat :=
  if (if inclusive then size ≤ u else size < u) then u - size else u

/-- `WrapX` (R126). -/
def wrapX (p : Parameters) (u : Nat) : Nat := wrapCoord p.spriteWrapInclusive Config.screenW u

/-- `WrapY` (R126). -/
def wrapY (p : Parameters) (w : Nat) : Nat := wrapCoord p.spriteWrapInclusive Config.screenH w

/-- Check (a) of R127: no row is read, or the highest row address is in RAM. -/
def State.spriteRowsInRam (s : State) (n : Nat) : Bool := n == 0 || inRam (s.dataAddr (n - 1))

/-- Check (b) of R127: every one of the 8 * N positions, set or clear, lies in the grid after the wrap. -/
def spriteInGrid (p : Parameters) (x0 y0 n : Nat) : Bool :=
  (List.range n).all fun r => (List.range 8).all fun c =>
    decide (wrapX p (x0 + c) < Config.screenW) && decide (wrapY p (y0 + r) < Config.screenH)

/-- The three decimal digits of a byte, hundreds first (R147). -/
def bcdDigits (b : Byte) : List Byte :=
  [BitVec.ofNat 8 (b.toNat / 100), BitVec.ofNat 8 (b.toNat / 10 % 10), BitVec.ofNat 8 (b.toNat % 10)]

end Sys2Proof.Machine
end

