-- ==== Sys2Proof/Machine/Alu.lean ====
section
/-! DEFINITION. Family 0x8: the register ALU (spec/43_alu_8.md R105 to R117). Every result and every flag is a function
of the operands as they stood before the instruction (R105, R203). -/

namespace Sys2Proof.Machine

/-- 8XY0 `MOV Vx,Vy` (R106). -/
def execMovReg (x y : Nibble) (s : State) : Result := .next (s.setReg x (s.reg y)).advance

/-- 8XY1 `OR Vx,Vy`; VF is not written (R107). -/
def execOrReg (x y : Nibble) (s : State) : Result := .next (s.setReg x (s.reg x ||| s.reg y)).advance

/-- 8XY2 `AND Vx,Vy`; VF is not written (R108). -/
def execAndReg (x y : Nibble) (s : State) : Result := .next (s.setReg x (s.reg x &&& s.reg y)).advance

/-- 8XY3 `XOR Vx,Vy`; VF is not written (R109). -/
def execXorReg (x y : Nibble) (s : State) : Result := .next (s.setReg x (s.reg x ^^^ s.reg y)).advance

/-- 8XY4 `ADD Vx,Vy` (R110). -/
def execAddReg (x y : Nibble) (s : State) : Result :=
  .next (s.writeFlagged x (carryFlag (s.reg x) (s.reg y)) (s.reg x + s.reg y)).advance

/-- 8XY5 `SUB Vx,Vy` (R111). -/
def execSubReg (x y : Nibble) (s : State) : Result :=
  .next (s.writeFlagged x (notBorrowFlag (s.reg x) (s.reg y)) (s.reg x - s.reg y)).advance

/-- 8XY6 `SHR Vx`; Y is ignored (R112). -/
def execShr (x _y : Nibble) (s : State) : Result :=
  .next (s.writeFlagged x (lowBitFlag (s.reg x)) (s.reg x >>> 1)).advance

/-- 8XY7 `RSB Vx,Vy` (R113). -/
def execRsb (x y : Nibble) (s : State) : Result :=
  .next (s.writeFlagged x (notBorrowFlag (s.reg y) (s.reg x)) (s.reg y - s.reg x)).advance

/-- 8XYE `SHL Vx`; Y is ignored (R114). -/
def execShl (x _y : Nibble) (s : State) : Result :=
  .next (s.writeFlagged x (highBitFlag (s.reg x)) (s.reg x <<< 1)).advance

end Sys2Proof.Machine
end

