-- ==== Sys2Proof/Machine/Flow.lean ====
section
/-! DEFINITION. Families 0x0, 0x1, 0x2: clear screen, return, jump, call (spec/40_flow_0_1_2.md R80 to R85). -/

namespace Sys2Proof.Machine

/-- 00E0 `CLS` (R80). -/
def execCls (s : State) : Result := .next s.clearVram.advance

/-- 00EE `RTS`: the popped value is PC as it is, no advance (R81). -/
def execRts (s : State) : Result := s.orHalt s.pop

/-- 1NNN `JMP` (R82). -/
def execJmp (nnn : Addr) (s : State) : Result := .next (s.setPc (Word.ofAddr nnn))

/-- 2NNN `JSR`: PC + 2 is pushed (R83). -/
def execJsr (nnn : Addr) (s : State) : Result :=
  s.orHalt ((s.push (s.pc + 2#16)).map fun t => t.setPc (Word.ofAddr nnn))

end Sys2Proof.Machine
end

