-- ==== Sys2Proof/Machine/Immediate.lean ====
section
/-! DEFINITION. Families 0x6, 0x7: load and add immediate (spec/42_immediate_6_7.md R100, R101). -/

namespace Sys2Proof.Machine

/-- 6XKK `MOV Vx,$kk` (R100). -/
def execMovImm (x : Nibble) (kk : Byte) (s : State) : Result := .next (s.setReg x kk).advance

/-- 7XKK `ADD Vx,$kk`: wraps modulo 256, no flag (R101). -/
def execAddImm (x : Nibble) (kk : Byte) (s : State) : Result := .next (s.setReg x (s.reg x + kk)).advance

end Sys2Proof.Machine
end

