-- ==== Sys2Proof/Machine/IndexJumpRandom.lean ====
section
/-! DEFINITION. Families 0xA, 0xB, 0xC: load I, indexed jump, random byte (spec/44_index_jump_random_A_B_C.md R120 to
R122). -/

namespace Sys2Proof.Machine

/-- ANNN `MVI` (R120). -/
def execMvi (nnn : Addr) (s : State) : Result := .next (s.setI (Word.ofAddr nnn)).advance

/-- BNNN `JMI`: the sum is not masked to 12 bits (R121). -/
def execJmi (nnn : Addr) (s : State) : Result := .next (s.setPc (s.indexedTarget nnn))

/-- CXKK `RAND`: the byte on the input `rnd`, which the outside chooses anew for every loop iteration, AND KK (R122). -/
def execRand (x : Nibble) (kk : Byte) (s : State) : Result := .next (s.setReg x (s.rnd &&& kk)).advance

end Sys2Proof.Machine
end

