-- ==== Sys2Proof/Machine/Keys.lean ====
section
/-! DEFINITION. Family 0xE: the key skips, with the stub behaviour that is this hardware's (spec/46_keys_E.md R135,
R136; decision D13). There is no key input. -/

namespace Sys2Proof.Machine

/-- EX9E `SKPR`: never skips; V[X] is not read (R135). -/
def execSkpr (_x : Nibble) (s : State) : Result := .next s.advance

/-- EXA1 `SKUP`: always skips; V[X] is not read (R136). -/
def execSkup (_x : Nibble) (s : State) : Result := .next s.skip

end Sys2Proof.Machine
end

