-- ==== Sys2Proof/Machine/Misc.lean ====
section
/-! DEFINITION. Family 0xF: timers, I, font, BCD, register block (spec/47_misc_F.md R140 to R149). -/

namespace Sys2Proof.Machine

/-- FX07 `GDELAY` (R140). -/
def execGdelay (x : Nibble) (s : State) : Result := .next (s.setReg x s.dt).advance

/-- FX0A `KEY`: does not wait, V[X] is neither read nor written (R141). -/
def execKey (_x : Nibble) (s : State) : Result := .next s.advance

/-- FX15 `SDELAY` (R142). -/
def execSdelay (x : Nibble) (s : State) : Result := .next (s.setDt (s.reg x)).advance

/-- FX18 `SSOUND` (R143). -/
def execSsound (x : Nibble) (s : State) : Result := .next (s.setSt (s.reg x)).advance

/-- FX1E `ADI`: 16-bit wrap, no flag, no mask (R144). -/
def execAdi (x : Nibble) (s : State) : Result := .next (s.setI (s.i + Word.ofByte (s.reg x))).advance

/-- FX29 `FONT` (R145). -/
def execFont (x : Nibble) (s : State) : Result := .next (s.setI (glyphAddr (s.reg x))).advance

/-- FX33 `BCD`: checked before any write, then hundreds, tens, ones at I, I + 1, I + 2 (R147). -/
def execBcd (x : Nibble) (s : State) : Result :=
  s.orHalt
    (if inRam (s.dataAddr 2) then .ok (s.setRamBytes (s.dataAddr 0) (bcdDigits (s.reg x))).advance
     else .error .addrOutOfRange)

/-- `MemWrite(base + k, 1, V[k])` for k = 0 to count - 1 (R148). -/
def State.storeBlock (s : State) (base count : Nat) : State :=
  (List.range count).foldl (fun t k => t.setRamByte (base + k) (s.reg (BitVec.ofNat 4 k))) s

/-- FX55 `STR V0-Vx`: checked before any write (R148). -/
def execStr (x : Nibble) (s : State) : Result :=
  s.orHalt
    (if inRam (s.blockBase + x.toNat) then .ok (s.storeBlock s.blockBase (x.toNat + 1)).advance
     else .error .addrOutOfRange)

/-- `V[k] <- MemRead(base + k, 1)` for k = 0 to count - 1 (R149). -/
def State.loadBlock (s : State) (base count : Nat) : State :=
  (List.range count).foldl (fun t k => t.setReg (BitVec.ofNat 4 k) (s.ramByte (base + k))) s

/-- FX65 `LDR V0-Vx`: checked before any register is written (R149). -/
def execLdr (x : Nibble) (s : State) : Result :=
  s.orHalt
    (if inRam (s.blockBase + x.toNat) then .ok (s.loadBlock s.blockBase (x.toNat + 1)).advance
     else .error .addrOutOfRange)

end Sys2Proof.Machine
end

