-- ==== Sys2Proof/Machine/Skips.lean ====
section
/-! DEFINITION. Families 0x3, 0x4, 0x5, 0x9: the conditional skips (spec/41_skips_3_4_5_9.md R90 to R95). -/

namespace Sys2Proof.Machine

/-- PC + 4 when the condition holds, PC + 2 when it does not, both from the skip's own address (R95). -/
def State.skipIf (s : State) (cond : Bool) : Result := .next (if cond then s.skip else s.advance)

/-- 3XKK `SKEQ Vx,$kk` (R90). -/
def execSkeqImm (x : Nibble) (kk : Byte) (s : State) : Result := s.skipIf (s.reg x == kk)

/-- 4XKK `SKNE Vx,$kk` (R91). -/
def execSkneImm (x : Nibble) (kk : Byte) (s : State) : Result := s.skipIf (s.reg x != kk)

/-- 5XY0 `SKEQ Vx,Vy` (R92). -/
def execSkeqReg (x y : Nibble) (s : State) : Result := s.skipIf (s.reg x == s.reg y)

/-- 9XY0 `SKNE Vx,Vy` (R93). -/
def execSkneReg (x y : Nibble) (s : State) : Result := s.skipIf (s.reg x != s.reg y)

end Sys2Proof.Machine
end

