-- ==== Sys2Proof/Machine/Sprite.lean ====
section
/-! DEFINITION. Family 0xD: sprite draw and the framebuffer write controller (spec/45_sprite_D.md R125 to R129). -/

namespace Sys2Proof.Machine

/-- Column `c` of a sprite row drawn at line `py`: a set bit (the MSB is column 0) flips its pixel and reports a
collision when the pixel was lit (R125). -/
def drawColumn (p : Parameters) (row : Byte) (x0 py : Nat) (acc : Memory × Bool) (c : Nat) : Memory × Bool :=
  if row.getLsbD (7 - c) then
    let lit := acc.1.pixRead (wrapX p (x0 + c)) py
    (acc.1.pixWrite (wrapX p (x0 + c)) py (!lit), acc.2 || lit)
  else acc

/-- One sprite row, its eight columns from the left (R125). -/
def drawRow (p : Parameters) (row : Byte) (x0 py : Nat) (acc : Memory × Bool) : Memory × Bool :=
  (List.range 8).foldl (drawColumn p row x0 py) acc

/-- Phase 2 of R125: the framebuffer after the sprite, and whether any pixel collided. -/
def State.drawSprite (s : State) (x0 y0 n : Nat) : Memory × Bool :=
  (List.range n).foldl
    (fun acc r => drawRow s.params (s.ramByte (s.dataAddr r)) x0 (wrapY s.params (y0 + r)) acc) (s.vram, false)

/-- The framebuffer after the sprite, VF set to the collision flag last (R125, R128). -/
def State.withSprite (s : State) (x0 y0 n : Nat) : State :=
  { s with vram := (s.drawSprite x0 y0 n).1 }.setReg vf (flagByte (s.drawSprite x0 y0 n).2)

/-- The checks of R127 in their order, then the draw. -/
def State.checkedSprite (s : State) (x0 y0 n : Nat) : Except HaltCause State :=
  if !s.spriteRowsInRam n then .error .addrOutOfRange
  else if !spriteInGrid s.params x0 y0 n then .error .vramOutOfRange
  else .ok (s.withSprite x0 y0 n).advance

/-- DXYN `SPRITE` (R125). -/
def execSprite (x y n : Nibble) (s : State) : Result :=
  s.orHalt (s.checkedSprite (s.reg x).toNat (s.reg y).toNat n.toNat)

end Sys2Proof.Machine
end

