-- ==== Sys2Proof/WellFormed.lean ====
section
/-! DEFINITION. The checks that stand beside the types. An instruction's operand ranges (spec/30_encoding.md R63) are
in the types of Instr's fields, so every term of Instr is a legal instruction. What remains to be checked: that a
16-bit word is an instruction at all (the map of R65, an independent second reading of the decoder's work), and that a
launch is one the loader may make (spec/50_execution_loop.md R167). -/

namespace Sys2Proof

/-- One row of the opcode map: a word `op` is this row's instruction exactly when `op & mask = pattern` (R65). -/
structure OpcodeRow where
  mask : Word
  pattern : Word
  deriving DecidableEq, Repr

/-- The word is an instruction of this row (R65). -/
def OpcodeRow.matches (r : OpcodeRow) (op : Word) : Bool := op &&& r.mask == r.pattern

/-- Rows 1 to 9 of R65: families 0 to 7. -/
def opcodeRowsLow : List OpcodeRow :=
  [⟨0xFFFF, 0x00E0⟩, ⟨0xFFFF, 0x00EE⟩, ⟨0xF000, 0x1000⟩, ⟨0xF000, 0x2000⟩, ⟨0xF000, 0x3000⟩,
   ⟨0xF000, 0x4000⟩, ⟨0xF00F, 0x5000⟩, ⟨0xF000, 0x6000⟩, ⟨0xF000, 0x7000⟩]

/-- Rows 10 to 18 of R65: family 8. -/
def opcodeRowsAlu : List OpcodeRow :=
  [⟨0xF00F, 0x8000⟩, ⟨0xF00F, 0x8001⟩, ⟨0xF00F, 0x8002⟩, ⟨0xF00F, 0x8003⟩, ⟨0xF00F, 0x8004⟩,
   ⟨0xF00F, 0x8005⟩, ⟨0xF00F, 0x8006⟩, ⟨0xF00F, 0x8007⟩, ⟨0xF00F, 0x800E⟩]

/-- Rows 19 to 34 of R65: families 9 to F. -/
def opcodeRowsHigh : List OpcodeRow :=
  [⟨0xF00F, 0x9000⟩, ⟨0xF000, 0xA000⟩, ⟨0xF000, 0xB000⟩, ⟨0xF000, 0xC000⟩, ⟨0xF000, 0xD000⟩,
   ⟨0xF0FF, 0xE09E⟩, ⟨0xF0FF, 0xE0A1⟩, ⟨0xF0FF, 0xF007⟩, ⟨0xF0FF, 0xF00A⟩, ⟨0xF0FF, 0xF015⟩,
   ⟨0xF0FF, 0xF018⟩, ⟨0xF0FF, 0xF01E⟩, ⟨0xF0FF, 0xF029⟩, ⟨0xF0FF, 0xF033⟩, ⟨0xF0FF, 0xF055⟩,
   ⟨0xF0FF, 0xF065⟩]

/-- The complete opcode map (R65). -/
def opcodeRows : List OpcodeRow := opcodeRowsLow ++ opcodeRowsAlu ++ opcodeRowsHigh

/-- The word is an instruction: it matches a row of R65. Every other word is an unknown opcode (R66). -/
def wordWellFormed (op : Word) : Bool := opcodeRows.any (·.matches op)

/-- The row of R65 an instruction is written in. -/
def Instr.row : Instr → OpcodeRow
  | .cls => ⟨0xFFFF, 0x00E0⟩
  | .rts => ⟨0xFFFF, 0x00EE⟩
  | .jmp _ => ⟨0xF000, 0x1000⟩
  | .jsr _ => ⟨0xF000, 0x2000⟩
  | .skeqImm _ _ => ⟨0xF000, 0x3000⟩
  | .skneImm _ _ => ⟨0xF000, 0x4000⟩
  | .skeqReg _ _ => ⟨0xF00F, 0x5000⟩
  | .movImm _ _ => ⟨0xF000, 0x6000⟩
  | .addImm _ _ => ⟨0xF000, 0x7000⟩
  | .movReg _ _ => ⟨0xF00F, 0x8000⟩
  | .orReg _ _ => ⟨0xF00F, 0x8001⟩
  | .andReg _ _ => ⟨0xF00F, 0x8002⟩
  | .xorReg _ _ => ⟨0xF00F, 0x8003⟩
  | .addReg _ _ => ⟨0xF00F, 0x8004⟩
  | .subReg _ _ => ⟨0xF00F, 0x8005⟩
  | .shr _ _ => ⟨0xF00F, 0x8006⟩
  | .rsb _ _ => ⟨0xF00F, 0x8007⟩
  | .shl _ _ => ⟨0xF00F, 0x800E⟩
  | .skneReg _ _ => ⟨0xF00F, 0x9000⟩
  | .mvi _ => ⟨0xF000, 0xA000⟩
  | .jmi _ => ⟨0xF000, 0xB000⟩
  | .rand _ _ => ⟨0xF000, 0xC000⟩
  | .sprite _ _ _ => ⟨0xF000, 0xD000⟩
  | .skpr _ => ⟨0xF0FF, 0xE09E⟩
  | .skup _ => ⟨0xF0FF, 0xE0A1⟩
  | .gdelay _ => ⟨0xF0FF, 0xF007⟩
  | .key _ => ⟨0xF0FF, 0xF00A⟩
  | .sdelay _ => ⟨0xF0FF, 0xF015⟩
  | .ssound _ => ⟨0xF0FF, 0xF018⟩
  | .adi _ => ⟨0xF0FF, 0xF01E⟩
  | .font _ => ⟨0xF0FF, 0xF029⟩
  | .bcd _ => ⟨0xF0FF, 0xF033⟩
  | .str _ => ⟨0xF0FF, 0xF055⟩
  | .ldr _ => ⟨0xF0FF, 0xF065⟩

/-- The loader may make this launch: 80 font bytes, and a program of at most 3584 bytes (R167, R170). -/
def launchWellFormed (font program : List Byte) : Bool :=
  font.length == Config.fontBytes && program.length ≤ Config.programMax

end Sys2Proof
end

