-- ==== Sys2Proof/Machine/HostMoves.lean ====
section
/-! DEFINITION. The machine at power-on (spec/70_reset_and_hazards.md R198), what the entry points of the core do
(spec/50_execution_loop.md R157, R162, R165, R167, R170), and the reset they perform (R195). -/

namespace Sys2Proof.Machine

/-- The machine at power-on, before any Run: Stopped, no halt, nothing attached (DEDUCED from R199), no strobe raised
(R26, R196, R198; log 12). The spec gives the registers no value before the first reset and RAM and VRAM whatever their
owners left, so these are the argument's, any at all. -/
def State.powerOn (before : State) : State :=
  { before with
    run := false, haltReason := 0#3, attached := ⟨false, false, false⟩, present := false, frame := none,
    setupError := false }

/-- `Reset()`: every register and VRAM; not RAM, and not RUN (R195). -/
def State.resetCore (s : State) : State :=
  { s with
    v := State.reset.v, i := State.reset.i, pc := State.reset.pc, sp := State.reset.sp, stack := State.reset.stack,
    dt := State.reset.dt, st := State.reset.st, opcode := State.reset.opcode, gate := State.reset.gate,
    haltReason := State.reset.haltReason, haltPc := State.reset.haltPc, haltOpcode := State.reset.haltOpcode,
    vram := State.reset.vram }

/-- All three of `ATTACHED` are set (R157). -/
def Attached.all (a : Attached) : Bool := a.ram && a.vram && a.display

/-- The flag one attach operation sets (R165). Nothing clears a flag again: that the host has no detach while Stopped
is the model's choice (DESIGN CHOICE, unsafe; log 11). An attach sets the flag only, also for a port attached before:
that it brings in no other bytes of RAM or VRAM is the model's choice (DESIGN CHOICE, unsafe; log 14). -/
def Attached.add (a : Attached) : Port → Attached
  | .ram => { a with ram := true }
  | .vram => { a with vram := true }
  | .display => { a with display := true }

/-- A Run request: no effect while Running; `setup_error` and nothing else when something is not attached; else a full
reset and RUN <- 1 (R157, D18). -/
def State.runRequest (s : State) : State :=
  if s.run then s
  else if s.attached.all then { s.resetCore with run := true }
  else { s with setupError := true }

/-- A stop request sets RUN <- 0 and does nothing else (R162). -/
def State.stopRequest (s : State) : State := { s with run := false }

/-- A move the host makes only while Stopped (R165, R170). -/
def State.whileStopped (s : State) (r : Result) : Result := if s.run then .refused .hostMoveWhileRunning else r

/-- The loader: the font from 0x000, the program from 0x200, every other byte as it was (R167). -/
def State.load (s : State) (font program : List Byte) : State :=
  (s.setRamBytes Config.fontBase font).setRamBytes Config.programBase program

/-- A launch the loader may not make is refused (R167, U11). -/
def State.loadRequest (s : State) (font program : List Byte) : Result :=
  if launchWellFormed font program then .next (s.load font program) else .refused .launchRefused

/-- The host writes one byte of RAM (R170). -/
def State.hostWrite (s : State) (a : Nat) (b : Byte) : Result :=
  if inRam a then .next (s.setRamByte a b) else .refused .hostWriteOutsideRam

/-- An opcode laid out at PC as the hardware stores it: high byte at PC, low byte at PC + 1 (R44). -/
def State.placeWord (s : State) (op : Word) : State :=
  (s.setRamByte s.pc.toNat (highByte op)).setRamByte (s.pc.toNat + 1) (lowByte op)

end Sys2Proof.Machine
end

