-- ==== Sys2Proof/Machine/Loop.lean ====
section
/-! DEFINITION. The execution loop: timer tick, gate, fetch, dispatch, and the inputs that drive it
(spec/50_execution_loop.md R155 to R170, spec/60_exceptions.md R185). -/

namespace Sys2Proof.Machine

/-- A countdown: one less, never below zero (R185). -/
def countDown (b : Byte) : Byte := if b = 0x00#8 then b else b - 1#8

/-- `TimerTick()`: present, then ST, then DT (R185). During present the display collaborator reads VRAM as every
instruction completed so far has left it, before any instruction of this iteration has started (R54, R166). -/
def State.timerTick (s : State) : State :=
  { s with present := true, frame := some s.vram, st := countDown s.st, dt := countDown s.dt }

/-- Fetch: OPCODE takes the two bytes at PC; PC does not change; outside RAM it halts and OPCODE keeps its value
(R159). -/
def State.fetch (s : State) : Except HaltCause State :=
  (s.memReadWord s.pc.toNat).map fun op => { s with opcode := op }

/-- Steps 3 and 4 of R158: fetch, dispatch, execute; an opcode that matches no row halts (R66, R175). -/
def State.instrStep (s : State) : Result :=
  match s.fetch with
  | .error cause => .next (s.halt cause)
  | .ok t =>
    match decodeWord t.opcode with
    | .error _ => .next (t.halt .unknownOpcode)
    | .ok i => exec i t

/-- Step 5 of R158: `GATE <- 0`, after a halt too (R161, R163). -/
def closeGate : Result → Result
  | .next t => .next { t with gate := false }
  | other => other

/-- Step 1 of R158: the stop request that arrives in the iteration, the timer tick, the gate; `rnd` is sampled
(R122, R158, R162). -/
def State.sample (s : State) (tickTmr tickCpu stopReq : Bool) (rnd : Byte) : State :=
  let s := { s with rnd := rnd, run := s.run && !stopReq }
  let s := if tickTmr then s.timerTick else s
  { s with gate := s.gate || tickCpu }

/-- One loop iteration (R158). While Stopped there is none: after a clean stop nothing changes (step 0), after a halt
the state is terminal (R163, R179). -/
def State.iterate (s : State) (tickTmr tickCpu stopReq : Bool) (rnd : Byte) : Result :=
  if s.run then
    let t := s.sample tickTmr tickCpu stopReq rnd
    if t.gate then closeGate t.instrStep else .next t
  else if s.haltReason = 0#3 then .next s
  else .fault (.halted s.haltReason)

/-- The input the machine receives next: the oldest the state fixes, else a free one (log 2). -/
def State.input (s : State) : HostInput :=
  match s.inputs with
  | [] => Config.freeInput s.inputNo
  | inp :: _ => inp

/-- The state once that input has been taken, with both output strobes low and no frame presented (R156). -/
def State.inputTaken (s : State) : State :=
  match s.inputs with
  | [] => { s with inputNo := s.inputNo + 1, present := false, frame := none, setupError := false }
  | _ :: rest => { s with inputs := rest, present := false, frame := none, setupError := false }

/-- What an input does (R158, R170). An attach leaves every byte of RAM and VRAM as it is (DESIGN CHOICE, unsafe;
log 14). -/
def State.receive (s : State) : HostInput → Result
  | .iterate tickTmr tickCpu stopReq rnd => s.iterate tickTmr tickCpu stopReq rnd
  | .stopRequest => .next s.stopRequest
  | .runRequest => .next s.runRequest
  | .resetRequest => s.whileStopped (.next s.resetCore)
  | .attach port => s.whileStopped (.next { s with attached := s.attached.add port })
  | .load font program => s.whileStopped (s.loadRequest font program)
  | .writeRam a b => s.whileStopped (s.hostWrite a b)

end Sys2Proof.Machine
end

