-- ==== Sys2Proof/Machine/Step.lean ====
section
/-! DEFINITION. One step of the machine: it receives its next input (spec/50_execution_loop.md R158, R170). -/

namespace Sys2Proof.Machine

/-- One step: a loop iteration, or another move of the host. -/
def step (s : State) : Host.Outcome State Fault Refusal := s.inputTaken.receive s.input

/-- The state whose very next step fetches and runs the word: the word lies at PC, the machine is Running, and the
next input is a loop iteration in which the instruction cadence fires and nothing else (log 3). The random byte that
iteration draws is the state's own `rnd`, where R122 leaves every draw free (DESIGN CHOICE, unsafe; log 13). -/
def State.withFetchWord (s : State) (nbits w : Nat) : State :=
  { s.placeWord (tableWord nbits w) with run := true, inputs := .iterate false true false s.rnd :: s.inputs }

end Sys2Proof.Machine
end

