-- ==== Sys2Proof/Safety.lean ====
section
/-! DEFINITION. What the claims are stated in: the pieces of state a claim says are unchanged, the halted states, and
the invariant every step keeps. -/

namespace Sys2Proof.Machine

/-- The run has ended in a halt: not a successful final state (spec/60_exceptions.md R179). -/
def State.halted (s : State) : Prop := s.run = false ∧ s.haltReason ≠ 0#3

/-- The run has ended in a clean stop (spec/50_execution_loop.md R163). -/
def State.cleanlyStopped (s : State) : Prop := s.run = false ∧ s.haltReason = 0#3

/-- The pieces of state a frame speaks of. -/
inductive Part where
  /-- The sixteen general registers. -/
  | regs
  /-- `I`. -/
  | i
  /-- `PC`. -/
  | pc
  /-- `SP` and every slot of `STACK`. -/
  | stack
  /-- `DT`. -/
  | dt
  /-- `ST`. -/
  | st
  /-- `OPCODE`. -/
  | opcode
  /-- `RUN`. -/
  | run
  /-- `GATE`. -/
  | gate
  /-- `HALT_REASON`, `HALT_PC`, `HALT_OPCODE`. -/
  | haltRegs
  /-- Every byte of RAM, as it reads. -/
  | ram
  /-- Every byte of VRAM, as it reads. -/
  | vram
  /-- `ATTACHED`. -/
  | attached
  /-- The output strobes `present` and `setup_error`, and the frame `present` hands over. -/
  | strobes
  /-- The parameters of the machine (spec/00_scope.md R6). -/
  | params
  /-- The inputs: `rnd`, and what the outside gives next. -/
  | inputs
  deriving DecidableEq, Repr

/-- A piece of state is the same in both states. -/
def Part.same (s t : State) : Part → Prop
  | .regs => ∀ r, t.reg r = s.reg r
  | .i => t.i = s.i
  | .pc => t.pc = s.pc
  | .stack => t.sp = s.sp ∧ t.stack = s.stack
  | .dt => t.dt = s.dt
  | .st => t.st = s.st
  | .opcode => t.opcode = s.opcode
  | .run => t.run = s.run
  | .gate => t.gate = s.gate
  | .haltRegs => t.haltReason = s.haltReason ∧ t.haltPc = s.haltPc ∧ t.haltOpcode = s.haltOpcode
  | .ram => ∀ a, t.ramByte a = s.ramByte a
  | .vram => ∀ k, t.vramByte k = s.vramByte k
  | .attached => t.attached = s.attached
  | .strobes => t.present = s.present ∧ t.frame = s.frame ∧ t.setupError = s.setupError
  | .params => t.params = s.params
  | .inputs => t.rnd = s.rnd ∧ t.inputs = s.inputs ∧ t.inputNo = s.inputNo

/-- Every piece of state outside the list is the same in both states. -/
def SameBut (parts : List Part) (s t : State) : Prop := ∀ p, p ∉ parts → p.same s t

/-- No register but the named ones differs. -/
def RegsSameBut (rs : List Nibble) (s t : State) : Prop := ∀ r, r ∉ rs → t.reg r = s.reg r

/-- PC advances by n, modulo 65536 (spec/00_scope.md R8). -/
def PcAdvances (s t : State) (n : Nat) : Prop := t.pc.toNat = (s.pc.toNat + n) % 65536

/-- The instruction completes: PC becomes `target` modulo 65536 and nothing else changes. -/
def MovesPcTo (i : Instr) (s : State) (target : Nat) : Prop :=
  ∃ t, exec i s = .next t ∧ t.pc.toNat = target % 65536 ∧ SameBut [.pc] s t

/-- The instruction completes: `V[x]` becomes `n`, PC advances by 2, and nothing else changes. -/
def SetsReg (i : Instr) (s : State) (x : Nibble) (n : Nat) : Prop :=
  ∃ t, exec i s = .next t ∧ (t.reg x).toNat = n ∧ PcAdvances s t 2 ∧ RegsSameBut [x] s t ∧ SameBut [.regs, .pc] s t

/-- The instruction completes: `V[x]` becomes `n`, VF becomes `flag` unless x is F itself, PC advances by 2, and nothing
else changes (spec/43_alu_8.md R105). -/
def SetsRegAndFlag (i : Instr) (s : State) (x : Nibble) (flag n : Nat) : Prop :=
  ∃ t, exec i s = .next t ∧ (t.reg x).toNat = n ∧ (x ≠ vf → (t.reg vf).toNat = flag) ∧ PcAdvances s t 2 ∧
    RegsSameBut [x, vf] s t ∧ SameBut [.regs, .pc] s t

/-- The instruction completes: I becomes `n`, PC advances by 2, and nothing else changes. -/
def SetsI (i : Instr) (s : State) (n : Nat) : Prop :=
  ∃ t, exec i s = .next t ∧ t.i.toNat = n ∧ PcAdvances s t 2 ∧ SameBut [.i, .pc] s t

/-- The halt registers record the code, the PC and the opcode, and RUN is 0
(spec/60_exceptions.md R176). -/
def HaltRecorded (t : State) (code : BitVec 3) (pc opcode : Word) : Prop :=
  t.haltReason = code ∧ t.haltPc = pc ∧ t.haltOpcode = opcode ∧ t.run = false

/-- The instruction raises a halt: the halt entry is made and nothing else changes (R176, R177). -/
def HaltsWith (i : Instr) (s : State) (code : BitVec 3) : Prop :=
  ∃ t, exec i s = .next t ∧ HaltRecorded t code s.pc s.opcode ∧ SameBut [.haltRegs, .run] s t

/-- A coordinate after the conditional subtract, for either value of `SPRITE_WRAP_INCLUSIVE`
(spec/45_sprite_D.md R126). -/
def State.wrapped (s : State) (size u : Nat) : Nat :=
  if s.params.spriteWrapInclusive = true then (if u ≥ size then u - size else u)
  else (if u > size then u - size else u)

/-- Every position of a sprite of n rows at (x0, y0), its bit set or clear, lies in the grid after the wrap (R127). -/
abbrev SpriteInGrid (s : State) (x0 y0 n : Nat) : Prop :=
  ∀ r, r < n → ∀ c, c < 8 → s.wrapped 64 (x0 + c) ≤ 63 ∧ s.wrapped 32 (y0 + r) ≤ 31

/-- The cause an instruction raises in a state, from the table of R175 and the order of R178; none where it raises
none. -/
def haltTable (s : State) : Instr → Option (BitVec 3)
  | .rts => if s.sp = 0#4 then some 3#3 else none
  | .jsr _ => if s.sp = 15#4 then some 2#3 else none
  | .sprite x y n =>
    if n.toNat ≥ 1 ∧ s.i.toNat + n.toNat - 1 > 0xFFF then some 4#3
    else if ¬SpriteInGrid s (s.reg x).toNat (s.reg y).toNat n.toNat then some 5#3
    else none
  | .bcd _ => if s.i.toNat + 2 > 0xFFF then some 4#3 else none
  | .str x => if s.params.regblockBias + s.i.toNat + x.toNat > 0xFFF then some 4#3 else none
  | .ldr x => if s.params.regblockBias + s.i.toNat + x.toNat > 0xFFF then some 4#3 else none
  | .cls => none
  | .jmp _ => none
  | .skeqImm _ _ => none
  | .skneImm _ _ => none
  | .skeqReg _ _ => none
  | .movImm _ _ => none
  | .addImm _ _ => none
  | .movReg _ _ => none
  | .orReg _ _ => none
  | .andReg _ _ => none
  | .xorReg _ _ => none
  | .addReg _ _ => none
  | .subReg _ _ => none
  | .shr _ _ => none
  | .rsb _ _ => none
  | .shl _ _ => none
  | .skneReg _ _ => none
  | .mvi _ => none
  | .jmi _ => none
  | .rand _ _ => none
  | .skpr _ => none
  | .skup _ => none
  | .gdelay _ => none
  | .key _ => none
  | .sdelay _ => none
  | .ssound _ => none
  | .adi _ => none
  | .font _ => none

/-- What PC becomes when the instruction raises no halt, by the classes of R15 (spec/10_state.md), before the
reduction modulo 65536. -/
def pcTable (s : State) : Instr → Nat
  | .jmp nnn => nnn.toNat
  | .jsr nnn => nnn.toNat
  | .jmi nnn => nnn.toNat + (s.reg 0x0#4).toNat
  | .rts => (s.stack[(s.sp - 1#4).toNat]'(s.sp - 1#4).isLt).toNat
  | .skeqImm x kk => if s.reg x = kk then s.pc.toNat + 4 else s.pc.toNat + 2
  | .skneImm x kk => if s.reg x ≠ kk then s.pc.toNat + 4 else s.pc.toNat + 2
  | .skeqReg x y => if s.reg x = s.reg y then s.pc.toNat + 4 else s.pc.toNat + 2
  | .skneReg x y => if s.reg x ≠ s.reg y then s.pc.toNat + 4 else s.pc.toNat + 2
  | .skup _ => s.pc.toNat + 4
  | .cls => s.pc.toNat + 2
  | .movImm _ _ => s.pc.toNat + 2
  | .addImm _ _ => s.pc.toNat + 2
  | .movReg _ _ => s.pc.toNat + 2
  | .orReg _ _ => s.pc.toNat + 2
  | .andReg _ _ => s.pc.toNat + 2
  | .xorReg _ _ => s.pc.toNat + 2
  | .addReg _ _ => s.pc.toNat + 2
  | .subReg _ _ => s.pc.toNat + 2
  | .shr _ _ => s.pc.toNat + 2
  | .rsb _ _ => s.pc.toNat + 2
  | .shl _ _ => s.pc.toNat + 2
  | .mvi _ => s.pc.toNat + 2
  | .rand _ _ => s.pc.toNat + 2
  | .sprite _ _ _ => s.pc.toNat + 2
  | .skpr _ => s.pc.toNat + 2
  | .gdelay _ => s.pc.toNat + 2
  | .key _ => s.pc.toNat + 2
  | .sdelay _ => s.pc.toNat + 2
  | .ssound _ => s.pc.toNat + 2
  | .adi _ => s.pc.toNat + 2
  | .font _ => s.pc.toNat + 2
  | .bcd _ => s.pc.toNat + 2
  | .str _ => s.pc.toNat + 2
  | .ldr _ => s.pc.toNat + 2

/-- The general registers an instruction may write: the X it names as its destination, VF where the instruction sets a
flag (spec/10_state.md R11), V[0] to V[X] for FX65 (R12). -/
def destRegs : Instr → List Nibble
  | .movImm x _ => [x]
  | .addImm x _ => [x]
  | .movReg x _ => [x]
  | .orReg x _ => [x]
  | .andReg x _ => [x]
  | .xorReg x _ => [x]
  | .addReg x _ => [x, vf]
  | .subReg x _ => [x, vf]
  | .shr x _ => [x, vf]
  | .rsb x _ => [x, vf]
  | .shl x _ => [x, vf]
  | .rand x _ => [x]
  | .sprite _ _ _ => [vf]
  | .gdelay x => [x]
  | .ldr x => (List.range (x.toNat + 1)).map (BitVec.ofNat 4)
  | .cls => []
  | .rts => []
  | .jmp _ => []
  | .jsr _ => []
  | .skeqImm _ _ => []
  | .skneImm _ _ => []
  | .skeqReg _ _ => []
  | .skneReg _ _ => []
  | .mvi _ => []
  | .jmi _ => []
  | .skpr _ => []
  | .skup _ => []
  | .key _ => []
  | .sdelay _ => []
  | .ssound _ => []
  | .adi _ => []
  | .font _ => []
  | .bcd _ => []
  | .str _ => []

/-- A sprite of n rows at (x0, y0) raises no halt (spec/45_sprite_D.md R127). -/
def SpriteFits (s : State) (x0 y0 n : Nat) : Prop :=
  (n ≥ 1 → s.i.toNat + n - 1 ≤ 0xFFF) ∧ SpriteInGrid s x0 y0 n

/-- Some set bit of the sprite (row r, column c, the MSB leftmost) lands on pixel (px, py) after the wrap
(R125, R126). -/
def SpriteCovers (s : State) (x0 y0 n px py : Nat) : Prop :=
  ∃ r c, r < n ∧ c < 8 ∧ (s.ramByte (s.i.toNat + r)).getLsbD (7 - c) = true ∧
    px = s.wrapped 64 (x0 + c) ∧ py = s.wrapped 32 (y0 + r)

/-- The pixel is lit: its first byte is not 0 (spec/20_memory.md R48). -/
def PixelLit (s : State) (px py : Nat) : Prop := s.vramByte (3 * (64 * py + px)) ≠ 0x00#8

/-- What the timer part of an iteration leaves, the timer cadence having fired or not: present raised exactly when it
fired, with VRAM handed over as it was before the iteration's instruction, and both countdowns one less, never below
zero (spec/60_exceptions.md R185, spec/20_memory.md R54). -/
def TickPerformed (tick : Bool) (s t : State) : Prop :=
  t.present = tick ∧ t.frame = (if tick then some s.vram else none) ∧
    t.st.toNat = (if tick then s.st.toNat - 1 else s.st.toNat) ∧
    t.dt.toNat = (if tick then s.dt.toNat - 1 else s.dt.toNat)

/-- The opcode at PC: the high byte at PC, the low byte at PC + 1 (spec/20_memory.md R44). -/
def State.wordAtPc (s : State) : Word := s.ramByte s.pc.toNat ++ s.ramByte (s.pc.toNat + 1)

/-- This iteration executes an instruction: the machine is Running and the gate is open or opens
(spec/50_execution_loop.md R158). -/
def Executes (s : State) (tickTmr tickCpu stopReq : Bool) (rnd : Byte) : Prop :=
  s.input = .iterate tickTmr tickCpu stopReq rnd ∧ s.run = true ∧ (s.gate = true ∨ tickCpu = true)

/-- Every value `Reset()` writes (spec/70_reset_and_hazards.md R195). -/
def State.atReset (t : State) : Prop :=
  (∀ r, t.reg r = 0x00#8) ∧ t.i = 0x0000#16 ∧ t.pc = 0x0200#16 ∧ t.sp = 0#4 ∧
    (∀ k (h : k < 16), t.stack[k]'h = 0x0000#16) ∧ t.dt = 0x00#8 ∧ t.st = 0x00#8 ∧ t.opcode = 0x0000#16 ∧
    t.gate = false ∧ t.haltReason = 0#3 ∧ t.haltPc = 0x0000#16 ∧ t.haltOpcode = 0x0000#16 ∧
    ∀ k, k < 6144 → t.vramByte k = 0x00#8

/-- A next state changed by a function; the other outcomes as they are. -/
def mapNext (f : State → State) : Result → Result
  | .next t => .next (f t)
  | .fault r => .fault r
  | .refused r => .refused r

/-- The invariant of a framebuffer: the three bytes of every pixel are equal, and 0 or 255 (spec/10_state.md R31). -/
def Memory.monochrome (m : Memory) : Prop :=
  ∀ x y, x < 64 → y < 32 →
    ∃ b, (b = 0x00#8 ∨ b = 0xFF#8) ∧ ∀ c, c < 3 → m.vramByte (3 * (64 * y + x) + c) = b

/-- VRAM meets the invariant of a framebuffer (R31). -/
def State.monochrome (s : State) : Prop := s.vram.monochrome

/-- Neither strobe was raised in the step, and no frame was presented. -/
def State.silent (s : State) : Prop := s.present = false ∧ s.frame = none ∧ s.setupError = false

/-- What holds at reset and is kept by every step. -/
structure State.Inv (s : State) : Prop where
  /-- RAM is in its canonical form, inside 0x000 to 0xFFF (spec/20_memory.md R40). -/
  ramForm : Memory.wf Config.ramSize ramUnlisted s.ram
  /-- VRAM is in its canonical form, inside 0 to 6143 (R40). -/
  vramForm : Memory.wf Config.vramSize vramUnlisted s.vram
  /-- R31. -/
  mono : s.monochrome
  /-- A frame is handed over exactly when `present` is raised (spec/20_memory.md R54). -/
  frameStrobe : s.present = s.frame.isSome
  /-- A presented frame is never half drawn: canonical, and it meets R31 (spec/50_execution_loop.md R169). -/
  frameForm : ∀ m, s.frame = some m → Memory.wf Config.vramSize vramUnlisted m ∧ m.monochrome
  /-- HALT_REASON 6 and 7 are never produced (spec/10_state.md R25). -/
  haltCode : s.haltReason.toNat ≤ 5
  /-- A machine that has halted since its reset is Stopped (spec/60_exceptions.md R176, R179). -/
  haltStops : s.haltReason ≠ 0#3 → s.run = false
  /-- PC never exceeds 0x10FE (spec/10_state.md R17). -/
  pcBound : s.pc.toNat ≤ 0x10FE
  /-- A pushed return address is at most 0x1000 (spec/40_flow_0_1_2.md R83). -/
  stackBound : ∀ k (h : k < 16), (s.stack[k]'h).toNat ≤ 0x1000
  /-- STACK[15] is never written (spec/10_state.md R22). -/
  topSlot : s.stack[15] = 0x0000#16

end Sys2Proof.Machine
end

