-- ==== Sys2Proof/Certificates/Slice0/Obligations.lean ====
section
/-! DEFINITION. The statements for the provers, from the numbered rules of spec/. Where a statement speaks of an
instruction it says first which words are that instruction (its encoding), then what it does, then what it leaves
unchanged. -/

open Sys2Proof Sys2Proof.Machine

/-! Encoding. -/

/-- R60, R64, R65: decoding the encoding of an instruction gives it back, as a word, as the first two of any bytes, and
as a row of the opcode table. -/
def Obligations.DecodingAnEncodedInstructionGivesItBack : Prop :=
  ∀ i, decodeWord (encode i) = .ok i ∧ (∀ rest, decode (encodeBytes i ++ rest) = .ok (i, rest)) ∧
    decodeTableWord 16 (encode i).toNat = some i

/-- R60, R65: a word decodes to at most the instruction it encodes: no bit of the word is dropped. -/
def Obligations.EncodingADecodedWordGivesItBack : Prop :=
  ∀ op i, decodeWord op = .ok i → encode i = op

/-- R65: an opcode is the instruction of a row exactly when `op & mask = match`, and the rows are pairwise disjoint. -/
def Obligations.DecoderFollowsTheOpcodeMap : Prop :=
  (∀ op r, r ∈ opcodeRows → (r.matches op = true ↔ ∃ i, decodeWord op = .ok i ∧ i.row = r)) ∧
    (∀ i : Instr, i.row ∈ opcodeRows) ∧
    (∀ op r r', r ∈ opcodeRows → r' ∈ opcodeRows → r.matches op = true → r'.matches op = true → r = r')

/-- R66: the words that are no instruction are exactly these five sets, each rejected by its own name. -/
def Obligations.UnknownWordsAreTheFiveSets : Prop :=
  ∀ op : Word,
    (decodeWord op = .error .unknownSystem ↔ op.toNat ≤ 0x0FFF ∧ op ≠ 0x00E0#16 ∧ op ≠ 0x00EE#16) ∧
    (decodeWord op = .error .unknownSkip ↔
      (op.toNat / 4096 = 0x5 ∨ op.toNat / 4096 = 0x9) ∧ op.toNat % 16 ≠ 0) ∧
    (decodeWord op = .error .unknownAlu ↔
      op.toNat / 4096 = 0x8 ∧ op.toNat % 16 ∈ [0x8, 0x9, 0xA, 0xB, 0xC, 0xD, 0xF]) ∧
    (decodeWord op = .error .unknownKey ↔ op.toNat / 4096 = 0xE ∧ op.toNat % 256 ∉ [0x9E, 0xA1]) ∧
    (decodeWord op = .error .unknownMisc ↔
      op.toNat / 4096 = 0xF ∧ op.toNat % 256 ∉ [0x07, 0x0A, 0x15, 0x18, 0x1E, 0x29, 0x33, 0x55, 0x65]) ∧
    decodeWord op ≠ .error .tooShort ∧
    (wordWellFormed op = false ↔ ∃ e, decodeWord op = .error e)

/-- R65 and the examples of the instruction rules: words written out from the spec decode to the instruction they stand
for. -/
def Obligations.WordsOfTheSpecDecodeAsWritten : Prop :=
  decodeWord 0x00E0#16 = .ok .cls ∧ decodeWord 0x1ABC#16 = .ok (.jmp 0xABC#12) ∧
    decodeWord 0x3342#16 = .ok (.skeqImm 0x3#4 0x42#8) ∧ decodeWord 0x5120#16 = .ok (.skeqReg 0x1#4 0x2#4) ∧
    decodeWord 0x6005#16 = .ok (.movImm 0x0#4 0x05#8) ∧ decodeWord 0x8014#16 = .ok (.addReg 0x0#4 0x1#4) ∧
    decodeWord 0xA123#16 = .ok (.mvi 0x123#12) ∧ decodeWord 0xC00F#16 = .ok (.rand 0x0#4 0x0F#8) ∧
    decodeWord 0xD012#16 = .ok (.sprite 0x0#4 0x1#4 0x2#4) ∧ decodeWord 0xE09E#16 = .ok (.skpr 0x0#4) ∧
    decodeWord 0xF255#16 = .ok (.str 0x2#4) ∧ decodeWord 0x8018#16 = .error .unknownAlu

/-! Reset, the host and the execution loop. -/

/-- R196, R6: State.reset, which the model takes for the machine after a successful Run request (log 3), holds every
reset value, RUN = 1, and the parameters of this hardware (log 6). -/
def Obligations.ResetStateHoldsTheResetValues : Prop :=
  State.reset.atReset ∧ State.reset.run = true ∧ State.reset.params.regblockBias = 0x200 ∧
    State.reset.params.spriteWrapInclusive = true

/-- R6: the parameters are arguments of the machine: no step, whatever its input, changes them (log 6). -/
def Obligations.NoStepChangesTheParameters : Prop :=
  ∀ s t : State, step s = .next t → t.params = s.params

/-- R26, R198, R199: at power-on, whatever registers and memories hold, the machine is Stopped with no halt and nothing
attached (log 12); the three attach operations in any order, a load and a Run request, one after another, leave it
Running with every register at its reset value and RAM holding the launch. That the attach operations leave the bytes
of RAM is the model's choice (log 14). -/
def Obligations.PowerOnIsStoppedUntilAttachedLoadedAndRun : Prop :=
  ∀ before : State, before.powerOn.run = false ∧ before.powerOn.haltReason = 0#3 ∧
    before.powerOn.attached = ⟨false, false, false⟩ ∧ before.powerOn.silent ∧
    ∀ a b c font program rest, (∀ p : Port, p = a ∨ p = b ∨ p = c) → font.length = 80 → program.length ≤ 3584 →
      ∃ t₁ t₂ t₃ t₄ t₅,
        step { before.powerOn with
          inputs := .attach a :: .attach b :: .attach c :: .load font program :: .runRequest :: rest } = .next t₁ ∧
        step t₁ = .next t₂ ∧ step t₂ = .next t₃ ∧ step t₃ = .next t₄ ∧ step t₄ = .next t₅ ∧
        t₅.atReset ∧ t₅.run = true ∧ t₅.attached = ⟨true, true, true⟩ ∧ t₅.inputs = rest ∧
        (∀ k (h : k < font.length), t₅.ramByte k = font[k]) ∧
        (∀ k (h : k < program.length), t₅.ramByte (0x200 + k) = program[k]) ∧
        ∀ k, ¬(k ≤ 0x04F) → ¬(0x200 ≤ k ∧ k < 0x200 + program.length) → t₅.ramByte k = before.ramByte k

/-- R195: `Reset()` is performed by every successful Run request, and by the reset entry point while Stopped; it writes
every register and VRAM and leaves RAM alone. -/
def Obligations.ResetWritesEveryRegisterAndNotRam : Prop :=
  (∀ s : State, s.input = .runRequest → s.run = false → s.attached = ⟨true, true, true⟩ →
    ∃ t, step s = .next t ∧ t.atReset ∧ t.run = true ∧
      SameBut [.regs, .i, .pc, .stack, .dt, .st, .opcode, .gate, .haltRegs, .vram, .run, .strobes, .inputs] s t) ∧
  (∀ s : State, s.input = .resetRequest → s.run = false →
    ∃ t, step s = .next t ∧ t.atReset ∧
      SameBut [.regs, .i, .pc, .stack, .dt, .st, .opcode, .gate, .haltRegs, .vram, .strobes, .inputs] s t)

/-- R180: a Run request with something not attached raises `setup_error` and does nothing else; R157: one while
Running has no effect. -/
def Obligations.RunRequestThatCannotStartChangesNothing : Prop :=
  (∀ s : State, s.input = .runRequest → s.run = false → s.attached ≠ ⟨true, true, true⟩ →
    ∃ t, step s = .next t ∧ t.setupError = true ∧ t.present = false ∧ t.frame = none ∧
      SameBut [.strobes, .inputs] s t) ∧
  (∀ s : State, s.input = .runRequest → s.run = true →
    ∃ t, step s = .next t ∧ t.silent ∧ SameBut [.strobes, .inputs] s t)

/-- R167: the loader writes the font at 0x000 to 0x04F and the program from 0x200, and no other byte; a launch it may
not make is refused. -/
def Obligations.LoaderWritesFontAndProgram : Prop :=
  ∀ (s : State) (font program : List Byte), s.input = .load font program → s.run = false →
    (font.length = 80 ∧ program.length ≤ 3584 →
      ∃ t, step s = .next t ∧ (∀ k (h : k < font.length), t.ramByte k = font[k]) ∧
        (∀ k (h : k < program.length), t.ramByte (0x200 + k) = program[k]) ∧
        (∀ a, ¬(a ≤ 0x04F) → ¬(0x200 ≤ a ∧ a < 0x200 + program.length) → t.ramByte a = s.ramByte a) ∧
        SameBut [.ram, .strobes, .inputs] s t) ∧
    (¬(font.length = 80 ∧ program.length ≤ 3584) → step s = .refused .launchRefused)

/-- R170, R165: while Stopped an attach sets its flag and a host write its byte; while Running neither, nor a load, nor
a reset, is a move of the model (log 8). That an attach leaves the bytes of RAM and VRAM is the model's choice
(log 14). -/
def Obligations.HostMovesBelongToStoppedMachines : Prop :=
  (∀ s p, s.input = .attach p → s.run = false →
    ∃ t, step s = .next t ∧ t.attached = s.attached.add p ∧ SameBut [.attached, .strobes, .inputs] s t) ∧
  (∀ (s : State) a b, s.input = .writeRam a b → s.run = false →
    (a ≤ 0xFFF → ∃ t, step s = .next t ∧ t.ramByte a = b ∧ (∀ k, k ≠ a → t.ramByte k = s.ramByte k) ∧
      SameBut [.ram, .strobes, .inputs] s t) ∧
    (a > 0xFFF → step s = .refused .hostWriteOutsideRam)) ∧
  (∀ s : State, s.run = true →
    ((∃ p, s.input = .attach p) ∨ (∃ a b, s.input = .writeRam a b) ∨ (∃ f p, s.input = .load f p) ∨
      s.input = .resetRequest) → step s = .refused .hostMoveWhileRunning)

/-- R163, R179: while Stopped a loop iteration runs nothing: after a clean stop nothing changes, after a halt the state
is terminal. -/
def Obligations.StoppedMachineRunsNothing : Prop :=
  ∀ (s : State) tickTmr tickCpu stopReq rnd, s.input = .iterate tickTmr tickCpu stopReq rnd →
    (s.cleanlyStopped → ∃ t, step s = .next t ∧ t.silent ∧ SameBut [.strobes, .inputs] s t) ∧
    (s.halted → step s = .fault (.halted s.haltReason))

/-- R185: an iteration whose gate stays closed performs the timer tick if the timer cadence fires: present with VRAM as
it stands, ST, DT, never below zero; and changes nothing else but RUN when a stop request arrives in it. -/
def Obligations.TimerTickCountsBothTimersDown : Prop :=
  ∀ (s : State) tickTmr stopReq rnd, s.input = .iterate tickTmr false stopReq rnd → s.run = true → s.gate = false →
    ∃ t, step s = .next t ∧ t.setupError = false ∧ TickPerformed tickTmr s t ∧ t.run = !stopReq ∧
      SameBut [.dt, .st, .run, .strobes, .inputs] s t

/-- R54, R166, R169: the display collaborator reads VRAM only when a timer tick raises present, and reads it as every
instruction completed so far has left it and none that has not started: before the iteration's own instruction. No other
move hands VRAM over. -/
def Obligations.PresentShowsCompletedInstructionsOnly : Prop :=
  (∀ (s t : State) tickTmr tickCpu stopReq rnd, s.input = .iterate tickTmr tickCpu stopReq rnd → s.run = true →
    step s = .next t → t.present = tickTmr ∧ t.frame = (if tickTmr then some s.vram else none)) ∧
  (∀ s t : State, step s = .next t → s.run = false ∨ (∀ tmr cpu stop rnd, s.input ≠ .iterate tmr cpu stop rnd) →
    t.present = false ∧ t.frame = none)

/-- R162: a stop request sets RUN to 0 and does nothing else; the iteration in which it arrives runs to its end exactly
as it would have without it. -/
def Obligations.StopRequestLetsTheIterationFinish : Prop :=
  (∀ s : State, s.input = .stopRequest →
    ∃ t, step s = .next t ∧ t.run = false ∧ SameBut [.run, .strobes, .inputs] s t) ∧
  (∀ (s t : State) tickTmr tickCpu rnd rest, s.run = true →
    step { s with inputs := .iterate tickTmr tickCpu false rnd :: rest } = .next t →
    step { s with inputs := .iterate tickTmr tickCpu true rnd :: rest } = .next { t with run := false })

/-- R158, R160, R161: when the bytes at PC decode to an instruction, an iteration that executes one ticks first, latches
the opcode, runs exactly that instruction at PC, and closes the gate. -/
def Obligations.StepRunsTheDecodedInstruction : Prop :=
  ∀ (s : State) tickTmr tickCpu stopReq rnd i, Executes s tickTmr tickCpu stopReq rnd → s.pc.toNat ≤ 0x0FFE →
    decode [s.ramByte s.pc.toNat, s.ramByte (s.pc.toNat + 1)] = .ok (i, []) →
    ∃ u, u.opcode = s.wordAtPc ∧ u.run = !stopReq ∧ u.gate = true ∧ u.rnd = rnd ∧
      u.setupError = false ∧ u.inputs = s.inputTaken.inputs ∧ u.inputNo = s.inputTaken.inputNo ∧
      TickPerformed tickTmr s u ∧ SameBut [.opcode, .run, .gate, .dt, .st, .strobes, .inputs] s u ∧
      step s = closeGate (exec i u) ∧ ∀ t, exec i u = .next t → step s = .next { t with gate := false }

/-- The state the host builds to run one word (log 3): its next step executes, the word at PC is the one placed, and the
random byte it draws is the state's own (log 13). -/
def Obligations.WithFetchWordIsRunNext : Prop :=
  ∀ (s : State) nbits w, s.pc.toNat ≤ 0x0FFE →
    Executes (s.withFetchWord nbits w) false true false s.rnd ∧
      (s.withFetchWord nbits w).wordAtPc = tableWord nbits w ∧ (s.withFetchWord nbits w).pc = s.pc ∧
      ∀ a, a ≠ s.pc.toNat → a ≠ s.pc.toNat + 1 → (s.withFetchWord nbits w).ramByte a = s.ramByte a

/-- R159: a fetch with PC above 0x0FFE halts with ADDR_OUT_OF_RANGE; OPCODE keeps its value and is what HALT_OPCODE
records; PC and everything else but the tick of the iteration stay. -/
def Obligations.FetchOutsideRamHalts : Prop :=
  ∀ (s : State) tickTmr tickCpu stopReq rnd, Executes s tickTmr tickCpu stopReq rnd → s.pc.toNat > 0x0FFE →
    ∃ t, step s = .next t ∧ HaltRecorded t 4#3 s.pc s.opcode ∧ t.gate = false ∧ TickPerformed tickTmr s t ∧
      SameBut [.haltRegs, .run, .gate, .dt, .st, .strobes, .inputs] s t

/-- R66, R84, R115: an opcode that matches no row halts with UNKNOWN_OPCODE; PC, every register, RAM and VRAM stay. -/
def Obligations.UnknownOpcodeHalts : Prop :=
  ∀ (s : State) tickTmr tickCpu stopReq rnd, Executes s tickTmr tickCpu stopReq rnd → s.pc.toNat ≤ 0x0FFE →
    wordWellFormed s.wordAtPc = false →
    ∃ t, step s = .next t ∧ HaltRecorded t 1#3 s.pc s.wordAtPc ∧ t.opcode = s.wordAtPc ∧ t.gate = false ∧
      TickPerformed tickTmr s t ∧
      SameBut [.haltRegs, .run, .opcode, .gate, .dt, .st, .strobes, .inputs] s t

/-- R158: when both cadences fire in one iteration the timer tick comes first and the instruction second: GDELAY reads
the delay timer already counted down. -/
def Obligations.TickComesBeforeTheInstruction : Prop :=
  ∀ (s : State) tickCpu stopReq rnd x, Executes s true tickCpu stopReq rnd → s.pc.toNat ≤ 0x0FFE →
    s.wordAtPc = 0xF#4 ++ x ++ 0x07#8 →
    ∃ t, step s = .next t ∧ (t.reg x).toNat = s.dt.toNat - 1 ∧ TickPerformed true s t ∧
      t.gate = false ∧ t.pc.toNat = s.pc.toNat + 2

/-! The whole machine. -/

/-- The invariant holds at reset. -/
def Obligations.InvariantHoldsAtReset : Prop := State.reset.Inv

/-- R17, R22, R25, R31, R40, R179: every step keeps the invariant: both memories stay canonical and inside their spaces,
the framebuffer, and every frame presented, stays monochrome, HALT_REASON stays a code, a halted machine stays Stopped,
PC stays at most 0x10FE, pushed return addresses at most 0x1000, and STACK[15] is never written. That an attach brings
in no other framebuffer is the model's choice (log 14). -/
def Obligations.EveryStepKeepsTheInvariant : Prop := ∀ s t : State, s.Inv → step s = .next t → t.Inv

/-- R31: reset and every instruction keep the three bytes of every pixel equal, and 0 or 255. -/
def Obligations.FramebufferStaysMonochrome : Prop :=
  State.reset.monochrome ∧ (∀ s : State, s.resetCore.monochrome) ∧
    ∀ (i : Instr) (s t : State), s.monochrome → exec i s = .next t → t.monochrome

/-- R176, R177, R178: an instruction raises exactly the halt the table of causes gives it, makes the halt entry and
changes nothing else; where the table gives none it completes and touches neither RUN nor the halt registers nor
anything outside the program's state. -/
def Obligations.HaltsAreExactlyTheTabledOnes : Prop :=
  ∀ (i : Instr) (s : State),
    (∀ code, haltTable s i = some code → HaltsWith i s code) ∧
    (haltTable s i = none → ∃ t, exec i s = .next t ∧ SameBut [.regs, .i, .pc, .stack, .dt, .st, .ram, .vram] s t)

/-- R15: PC after each class of instruction; a halting instruction leaves it. -/
def Obligations.PcFollowsItsInstructionClass : Prop :=
  ∀ (i : Instr) (s t : State), exec i s = .next t →
    (haltTable s i = none → t.pc.toNat = pcTable s i % 65536) ∧ (haltTable s i ≠ none → t.pc = s.pc)

/-- R20, R21, R24, R25, R30, R49: each piece of state outside the general registers changes only at the instructions the
spec names as its writers. -/
def Obligations.EachPieceOfStateHasOnlyItsWriters : Prop :=
  ∀ (i : Instr) (s t : State), exec i s = .next t →
    (t.i ≠ s.i → (∃ nnn, i = .mvi nnn) ∨ (∃ x, i = .adi x) ∨ ∃ x, i = .font x) ∧
    (t.sp ≠ s.sp → i = .rts ∨ ∃ nnn, i = .jsr nnn) ∧
    (t.stack ≠ s.stack → ∃ nnn, i = .jsr nnn) ∧
    (t.dt ≠ s.dt → ∃ x, i = .sdelay x) ∧
    (t.st ≠ s.st → ∃ x, i = .ssound x) ∧
    ((∃ a, t.ramByte a ≠ s.ramByte a) → (∃ x, i = .bcd x) ∨ ∃ x, i = .str x) ∧
    ((∃ k, t.vramByte k ≠ s.vramByte k) → i = .cls ∨ ∃ x y n, i = .sprite x y n) ∧
    t.opcode = s.opcode ∧ t.gate = s.gate ∧ t.attached = s.attached ∧ t.present = s.present ∧
    t.frame = s.frame ∧ t.setupError = s.setupError ∧ t.params = s.params ∧ t.rnd = s.rnd ∧
    t.inputs = s.inputs ∧ t.inputNo = s.inputNo

/-- R11, R12, R19: a general register changes only where the instruction names it as a destination, VF besides where the
instruction sets a flag; a flag is 0 or 1. -/
def Obligations.GeneralRegistersChangeOnlyAtDestinations : Prop :=
  ∀ (i : Instr) (s t : State), exec i s = .next t →
    RegsSameBut (destRegs i) s t ∧
    (∀ x y, x ≠ vf →
      i = .addReg x y ∨ i = .subReg x y ∨ i = .shr x y ∨ i = .rsb x y ∨ i = .shl x y →
      t.reg vf = 0x00#8 ∨ t.reg vf = 0x01#8) ∧
    (∀ x y n, i = .sprite x y n → haltTable s i = none → t.reg vf = 0x00#8 ∨ t.reg vf = 0x01#8)

/-- R22: SLOT 15 of the stack array is never written, and at most 15 return addresses are held: a push that would need
it is refused. -/
def Obligations.TheTopStackSlotIsNeverWritten : Prop :=
  ∀ (i : Instr) (s t : State), exec i s = .next t →
    t.stack[15] = s.stack[15] ∧ ∀ k (h : k < 16), k ≠ s.sp.toNat → t.stack[k] = s.stack[k]

/-- R24: no instruction reads ST; and none but RAND reads the random byte (R122). -/
def Obligations.SoundTimerAndRandomByteAreNotReadElsewhere : Prop :=
  (∀ (i : Instr) (s : State) b, (∀ x, i ≠ .ssound x) →
    exec i { s with st := b } = mapNext (fun t => { t with st := b }) (exec i s)) ∧
  (∀ (i : Instr) (s : State) b, (∀ x kk, i ≠ .rand x kk) →
    exec i { s with rnd := b } = mapNext (fun t => { t with rnd := b }) (exec i s))

/-! Families 0x0, 0x1, 0x2. -/

/-- R80: CLS clears every byte of the framebuffer and touches nothing else but PC. -/
def Obligations.ClsClearsTheFramebuffer : Prop :=
  decodeWord 0x00E0#16 = .ok .cls ∧
    ∀ s : State, ∃ t, exec .cls s = .next t ∧ (∀ k, k < 6144 → t.vramByte k = 0x00#8) ∧ PcAdvances s t 2 ∧
      SameBut [.vram, .pc] s t

/-- R81: RTS pops PC with no further advance, the popped slot keeps its contents; on an empty stack it halts with
STACK_UNDERFLOW. -/
def Obligations.RtsPopsThePc : Prop :=
  decodeWord 0x00EE#16 = .ok .rts ∧
    (∀ (s : State) k (h : k < 16), s.sp.toNat = k + 1 →
      ∃ t, exec .rts s = .next t ∧ t.sp.toNat = k ∧ t.pc = s.stack[k] ∧ t.stack = s.stack ∧
        SameBut [.stack, .pc] s t) ∧
    ∀ s : State, s.sp = 0#4 → HaltsWith .rts s 3#3

/-- R82: JMP sets PC to NNN and changes nothing else. -/
def Obligations.JmpSetsThePc : Prop :=
  (∀ nnn : Addr, decodeWord (0x1#4 ++ nnn) = .ok (.jmp nnn)) ∧
    ∀ (s : State) (nnn : Addr), MovesPcTo (.jmp nnn) s nnn.toNat

/-- R83: JSR pushes PC + 2 and jumps; with SP = 15 it halts with STACK_OVERFLOW and pushes nothing. -/
def Obligations.JsrPushesTheReturnAddress : Prop :=
  (∀ nnn : Addr, decodeWord (0x2#4 ++ nnn) = .ok (.jsr nnn)) ∧
    (∀ (s : State) (nnn : Addr), s.sp ≠ 15#4 →
      ∃ t, exec (.jsr nnn) s = .next t ∧ t.sp.toNat = s.sp.toNat + 1 ∧ t.pc.toNat = nnn.toNat ∧
        (∀ k (h : k < 16), t.stack[k].toNat =
          if k = s.sp.toNat then (s.pc.toNat + 2) % 65536 else s.stack[k].toNat) ∧
        SameBut [.stack, .pc] s t) ∧
    ∀ (s : State) (nnn : Addr), s.sp = 15#4 → HaltsWith (.jsr nnn) s 2#3

/-- R81, R83: JSR then RTS resumes at P + 2, whatever the subroutine did, as long as it left SP and the slot. -/
def Obligations.JsrThenRtsResumesAfterTheCall : Prop :=
  ∀ (s t u : State) (nnn : Addr), s.sp ≠ 15#4 → exec (.jsr nnn) s = .next t → u.sp = t.sp → u.stack = t.stack →
    ∃ w, exec .rts u = .next w ∧ w.pc.toNat = (s.pc.toNat + 2) % 65536 ∧ w.sp = s.sp

/-! Families 0x3, 0x4, 0x5, 0x9. -/

/-- R90, R91: skip if register equals, or differs from, the immediate: 4 or 2 from the skip's own address. -/
def Obligations.SkipsOnImmediateCompare : Prop :=
  (∀ (x : Nibble) (kk : Byte), decodeWord (0x3#4 ++ x ++ kk) = .ok (.skeqImm x kk) ∧
    decodeWord (0x4#4 ++ x ++ kk) = .ok (.skneImm x kk)) ∧
  ∀ (s : State) (x : Nibble) (kk : Byte),
    MovesPcTo (.skeqImm x kk) s (if (s.reg x).toNat = kk.toNat then s.pc.toNat + 4 else s.pc.toNat + 2) ∧
    MovesPcTo (.skneImm x kk) s (if (s.reg x).toNat = kk.toNat then s.pc.toNat + 2 else s.pc.toNat + 4)

/-- R92, R93: skip if two registers are equal, or differ; a word whose low nibble is not 0 is an unknown opcode. -/
def Obligations.SkipsOnRegisterCompare : Prop :=
  (∀ x y : Nibble, decodeWord (0x5#4 ++ x ++ y ++ 0x0#4) = .ok (.skeqReg x y) ∧
    decodeWord (0x9#4 ++ x ++ y ++ 0x0#4) = .ok (.skneReg x y)) ∧
  (∀ x y n : Nibble, n ≠ 0x0#4 → decodeWord (0x5#4 ++ x ++ y ++ n) = .error .unknownSkip ∧
    decodeWord (0x9#4 ++ x ++ y ++ n) = .error .unknownSkip) ∧
  ∀ (s : State) (x y : Nibble),
    MovesPcTo (.skeqReg x y) s (if (s.reg x).toNat = (s.reg y).toNat then s.pc.toNat + 4 else s.pc.toNat + 2) ∧
    MovesPcTo (.skneReg x y) s (if (s.reg x).toNat = (s.reg y).toNat then s.pc.toNat + 2 else s.pc.toNat + 4)

/-! Families 0x6, 0x7. -/

/-- R100: MOV Vx,$kk. -/
def Obligations.MovImmediateLoadsTheByte : Prop :=
  (∀ (x : Nibble) (kk : Byte), decodeWord (0x6#4 ++ x ++ kk) = .ok (.movImm x kk)) ∧
    ∀ (s : State) (x : Nibble) (kk : Byte), SetsReg (.movImm x kk) s x kk.toNat

/-- R101: ADD Vx,$kk wraps modulo 256 and sets no flag. -/
def Obligations.AddImmediateWrapsWithoutFlag : Prop :=
  (∀ (x : Nibble) (kk : Byte), decodeWord (0x7#4 ++ x ++ kk) = .ok (.addImm x kk)) ∧
    ∀ (s : State) (x : Nibble) (kk : Byte), SetsReg (.addImm x kk) s x (((s.reg x).toNat + kk.toNat) % 256)

/-! Family 0x8. -/

/-- R106 to R109: copy, OR, AND, XOR; VF is not written unless it is X. -/
def Obligations.CopyAndLogicSetNoFlag : Prop :=
  (∀ x y : Nibble, decodeWord (0x8#4 ++ x ++ y ++ 0x0#4) = .ok (.movReg x y) ∧
    decodeWord (0x8#4 ++ x ++ y ++ 0x1#4) = .ok (.orReg x y) ∧
    decodeWord (0x8#4 ++ x ++ y ++ 0x2#4) = .ok (.andReg x y) ∧
    decodeWord (0x8#4 ++ x ++ y ++ 0x3#4) = .ok (.xorReg x y)) ∧
  ∀ (s : State) (x y : Nibble),
    SetsReg (.movReg x y) s x (s.reg y).toNat ∧
    SetsReg (.orReg x y) s x ((s.reg x).toNat ||| (s.reg y).toNat) ∧
    SetsReg (.andReg x y) s x ((s.reg x).toNat &&& (s.reg y).toNat) ∧
    SetsReg (.xorReg x y) s x ((s.reg x).toNat ^^^ (s.reg y).toNat)

/-- R110, R105: ADD Vx,Vy with carry out; with X = F the result stays. -/
def Obligations.AddSetsTheCarry : Prop :=
  (∀ x y : Nibble, decodeWord (0x8#4 ++ x ++ y ++ 0x4#4) = .ok (.addReg x y)) ∧
    ∀ (s : State) (x y : Nibble),
      SetsRegAndFlag (.addReg x y) s x (if (s.reg x).toNat + (s.reg y).toNat > 255 then 1 else 0)
        (((s.reg x).toNat + (s.reg y).toNat) % 256)

/-- R111, R113: SUB and RSB with not-borrow out. -/
def Obligations.SubtractionsSetTheNotBorrow : Prop :=
  (∀ x y : Nibble, decodeWord (0x8#4 ++ x ++ y ++ 0x5#4) = .ok (.subReg x y) ∧
    decodeWord (0x8#4 ++ x ++ y ++ 0x7#4) = .ok (.rsb x y)) ∧
  ∀ (s : State) (x y : Nibble),
    SetsRegAndFlag (.subReg x y) s x (if (s.reg x).toNat ≥ (s.reg y).toNat then 1 else 0)
      (((s.reg x).toNat + 256 - (s.reg y).toNat) % 256) ∧
    SetsRegAndFlag (.rsb x y) s x (if (s.reg y).toNat ≥ (s.reg x).toNat then 1 else 0)
      (((s.reg y).toNat + 256 - (s.reg x).toNat) % 256)

/-- R112, R114: SHR and SHL by one bit, VF the bit shifted out as 0 or 1; Y is ignored. -/
def Obligations.ShiftsSetTheBitShiftedOut : Prop :=
  (∀ x y : Nibble, decodeWord (0x8#4 ++ x ++ y ++ 0x6#4) = .ok (.shr x y) ∧
    decodeWord (0x8#4 ++ x ++ y ++ 0xE#4) = .ok (.shl x y)) ∧
  ∀ (s : State) (x y : Nibble),
    SetsRegAndFlag (.shr x y) s x ((s.reg x).toNat % 2) ((s.reg x).toNat / 2) ∧
    SetsRegAndFlag (.shl x y) s x ((s.reg x).toNat / 128) (2 * (s.reg x).toNat % 256)

/-! Families 0xA, 0xB, 0xC. -/

/-- R120: MVI loads I with NNN, zero-extended. -/
def Obligations.MviLoadsTheAddressRegister : Prop :=
  (∀ nnn : Addr, decodeWord (0xA#4 ++ nnn) = .ok (.mvi nnn)) ∧
    ∀ (s : State) (nnn : Addr), SetsI (.mvi nnn) s nnn.toNat

/-- R121: JMI jumps to NNN + V0, not masked to 12 bits. -/
def Obligations.JmiJumpsIndexedByV0 : Prop :=
  (∀ nnn : Addr, decodeWord (0xB#4 ++ nnn) = .ok (.jmi nnn)) ∧
    ∀ (s : State) (nnn : Addr), MovesPcTo (.jmi nnn) s (nnn.toNat + (s.reg 0x0#4).toNat)

/-- R122: RAND: the random byte AND KK, for every random byte. The byte is a free value, the input of the iteration
(log 2, log 5): the statement holds for every value of it. -/
def Obligations.RandMasksTheRandomByte : Prop :=
  (∀ (x : Nibble) (kk : Byte), decodeWord (0xC#4 ++ x ++ kk) = .ok (.rand x kk)) ∧
    ∀ (s : State) (x : Nibble) (kk rnd : Byte),
      SetsReg (.rand x kk) { s with rnd := rnd } x (rnd.toNat &&& kk.toNat)

/-! Family 0xD. -/

/-- R125, R126, R128, R129: a sprite that fits flips exactly the pixels its set bits land on after the wrap, all three
bytes to 255 or 0, and sets VF to 1 when one of them was lit, else 0; with N = 0 it draws nothing. -/
def Obligations.SpriteFlipsThePixelsItCovers : Prop :=
  (∀ x y n : Nibble, decodeWord (0xD#4 ++ x ++ y ++ n) = .ok (.sprite x y n)) ∧
  ∀ (s : State) (x y n : Nibble), SpriteFits s (s.reg x).toNat (s.reg y).toNat n.toNat →
    ∃ t, exec (.sprite x y n) s = .next t ∧
      (∀ px py, px < 64 → py < 32 → ∀ c, c < 3 →
        (SpriteCovers s (s.reg x).toNat (s.reg y).toNat n.toNat px py →
          (PixelLit s px py → t.vramByte (3 * (64 * py + px) + c) = 0x00#8) ∧
          (¬PixelLit s px py → t.vramByte (3 * (64 * py + px) + c) = 0xFF#8)) ∧
        (¬SpriteCovers s (s.reg x).toNat (s.reg y).toNat n.toNat px py →
          t.vramByte (3 * (64 * py + px) + c) = s.vramByte (3 * (64 * py + px) + c))) ∧
      (∀ k, k ≥ 6144 → t.vramByte k = s.vramByte k) ∧
      ((∃ px py, SpriteCovers s (s.reg x).toNat (s.reg y).toNat n.toNat px py ∧ PixelLit s px py) →
        t.reg vf = 0x01#8) ∧
      ((¬∃ px py, SpriteCovers s (s.reg x).toNat (s.reg y).toNat n.toNat px py ∧ PixelLit s px py) →
        t.reg vf = 0x00#8) ∧
      PcAdvances s t 2 ∧ RegsSameBut [vf] s t ∧ SameBut [.regs, .vram, .pc] s t

/-- R127: the two range checks of DXYN in their order, both before any state changes, the second over every position;
with the inclusive wrap it is a bound on V[X] and on V[Y] + N; a sprite that passes both completes. -/
def Obligations.SpriteOutOfRangeHaltsBeforeDrawing : Prop :=
  ∀ (s : State) (x y n : Nibble),
    (n.toNat ≥ 1 → s.i.toNat + n.toNat - 1 > 0xFFF → HaltsWith (.sprite x y n) s 4#3) ∧
    ((n.toNat ≥ 1 → s.i.toNat + n.toNat - 1 ≤ 0xFFF) → ¬SpriteInGrid s (s.reg x).toNat (s.reg y).toNat n.toNat →
      HaltsWith (.sprite x y n) s 5#3) ∧
    (n.toNat ≥ 1 → s.params.spriteWrapInclusive = true →
      (SpriteInGrid s (s.reg x).toNat (s.reg y).toNat n.toNat ↔
        (s.reg x).toNat ≤ 120 ∧ (s.reg y).toNat + n.toNat ≤ 64)) ∧
    (SpriteFits s (s.reg x).toNat (s.reg y).toNat n.toNat →
      ∃ t, exec (.sprite x y n) s = .next t ∧ SameBut [.regs, .vram, .pc] s t)

/-- R126, R6: with `SPRITE_WRAP_INCLUSIVE = false`, the other value of the parameter, a position exactly 64 or 32 is not
wrapped and fails the check. -/
def Obligations.ExclusiveWrapHaltsAtTheEdge : Prop :=
  ∀ (s : State) (x y n : Nibble), s.params.spriteWrapInclusive = false → n.toNat ≥ 1 →
    s.i.toNat + n.toNat - 1 ≤ 0xFFF →
    ((∃ c, c < 8 ∧ (s.reg x).toNat + c = 64) ∨ ∃ r, r < n.toNat ∧ (s.reg y).toNat + r = 32) →
    HaltsWith (.sprite x y n) s 5#3

/-- R129 (e): drawing the same sprite twice restores the framebuffer, and the second draw sets VF exactly when an
overlapped pixel was on after the first. -/
def Obligations.SpriteDrawnTwiceRestoresTheScreen : Prop :=
  ∀ (s t : State) (x y n : Nibble), s.monochrome → x ≠ vf → y ≠ vf →
    SpriteFits s (s.reg x).toNat (s.reg y).toNat n.toNat → exec (.sprite x y n) s = .next t →
    ∃ u, exec (.sprite x y n) t = .next u ∧ (∀ k, u.vramByte k = s.vramByte k) ∧
      (u.reg vf = 0x01#8 ↔
        ∃ px py, SpriteCovers s (s.reg x).toNat (s.reg y).toNat n.toNat px py ∧ PixelLit t px py)

/-! Family 0xE and KEY. -/

/-- R135, R136, R141: the key stubs move PC by 2, 4 and 2 and change nothing else, whatever any register holds. -/
def Obligations.KeyStubsOnlyMoveThePc : Prop :=
  (∀ x : Nibble, decodeWord (0xE#4 ++ x ++ 0x9E#8) = .ok (.skpr x) ∧
    decodeWord (0xE#4 ++ x ++ 0xA1#8) = .ok (.skup x) ∧ decodeWord (0xF#4 ++ x ++ 0x0A#8) = .ok (.key x)) ∧
  ∀ (s : State) (x : Nibble), MovesPcTo (.skpr x) s (s.pc.toNat + 2) ∧ MovesPcTo (.skup x) s (s.pc.toNat + 4) ∧
    MovesPcTo (.key x) s (s.pc.toNat + 2)

/-! Family 0xF. -/

/-- R140, R142, R143: the timer accesses. -/
def Obligations.TimerAccessesMoveOneByte : Prop :=
  (∀ x : Nibble, decodeWord (0xF#4 ++ x ++ 0x07#8) = .ok (.gdelay x) ∧
    decodeWord (0xF#4 ++ x ++ 0x15#8) = .ok (.sdelay x) ∧ decodeWord (0xF#4 ++ x ++ 0x18#8) = .ok (.ssound x)) ∧
  ∀ (s : State) (x : Nibble),
    SetsReg (.gdelay x) s x s.dt.toNat ∧
    (∃ t, exec (.sdelay x) s = .next t ∧ t.dt = s.reg x ∧ PcAdvances s t 2 ∧ SameBut [.dt, .pc] s t) ∧
    (∃ t, exec (.ssound x) s = .next t ∧ t.st = s.reg x ∧ PcAdvances s t 2 ∧ SameBut [.st, .pc] s t)

/-- R144, R145: ADI wraps at 16 bits with no flag; FONT takes the low nibble, five bytes a glyph. -/
def Obligations.AddressRegisterArithmetic : Prop :=
  (∀ x : Nibble, decodeWord (0xF#4 ++ x ++ 0x1E#8) = .ok (.adi x) ∧
    decodeWord (0xF#4 ++ x ++ 0x29#8) = .ok (.font x)) ∧
  ∀ (s : State) (x : Nibble), SetsI (.adi x) s ((s.i.toNat + (s.reg x).toNat) % 65536) ∧
    SetsI (.font x) s (5 * ((s.reg x).toNat % 16))

/-- R147: BCD stores hundreds, tens, ones at I, I + 1, I + 2, or halts before any write. -/
def Obligations.BcdStoresThreeDigits : Prop :=
  (∀ x : Nibble, decodeWord (0xF#4 ++ x ++ 0x33#8) = .ok (.bcd x)) ∧
  (∀ (s : State) k, s.dataAddr k = s.i.toNat + k) ∧
  ∀ (s : State) (x : Nibble),
    (s.dataAddr 2 ≤ 0xFFF →
      ∃ t, exec (.bcd x) s = .next t ∧ (t.ramByte (s.dataAddr 0)).toNat = (s.reg x).toNat / 100 ∧
        (t.ramByte (s.dataAddr 1)).toNat = (s.reg x).toNat / 10 % 10 ∧
        (t.ramByte (s.dataAddr 2)).toNat = (s.reg x).toNat % 10 ∧
        (∀ a, a < s.dataAddr 0 ∨ s.dataAddr 2 < a → t.ramByte a = s.ramByte a) ∧ PcAdvances s t 2 ∧
        SameBut [.ram, .pc] s t) ∧
    (s.dataAddr 2 > 0xFFF → HaltsWith (.bcd x) s 4#3)

/-- R148: STR stores V0 to VX from REGBLOCK_BIAS + I, V0 lowest, or halts before any write, for every value of the
parameter. -/
def Obligations.StrStoresTheRegisterBlock : Prop :=
  (∀ x : Nibble, decodeWord (0xF#4 ++ x ++ 0x55#8) = .ok (.str x)) ∧
  (∀ s : State, s.blockBase = s.params.regblockBias + s.i.toNat) ∧
  ∀ (s : State) (x : Nibble),
    (s.blockBase + x.toNat ≤ 0xFFF →
      ∃ t, exec (.str x) s = .next t ∧
        (∀ r : Nibble, r.toNat ≤ x.toNat → t.ramByte (s.blockBase + r.toNat) = s.reg r) ∧
        (∀ a, a < s.blockBase ∨ s.blockBase + x.toNat < a → t.ramByte a = s.ramByte a) ∧ PcAdvances s t 2 ∧
        SameBut [.ram, .pc] s t) ∧
    (s.blockBase + x.toNat > 0xFFF → HaltsWith (.str x) s 4#3)

/-- R149: LDR loads V0 to VX from REGBLOCK_BIAS + I, or halts before any register is written, for every value of the
parameter. -/
def Obligations.LdrLoadsTheRegisterBlock : Prop :=
  (∀ x : Nibble, decodeWord (0xF#4 ++ x ++ 0x65#8) = .ok (.ldr x)) ∧
  ∀ (s : State) (x : Nibble),
    (s.params.regblockBias + s.i.toNat + x.toNat ≤ 0xFFF →
      ∃ t, exec (.ldr x) s = .next t ∧
        (∀ r : Nibble, r.toNat ≤ x.toNat → t.reg r = s.ramByte (s.params.regblockBias + s.i.toNat + r.toNat)) ∧
        (∀ r : Nibble, x.toNat < r.toNat → t.reg r = s.reg r) ∧ PcAdvances s t 2 ∧ SameBut [.regs, .pc] s t) ∧
    (s.params.regblockBias + s.i.toNat + x.toNat > 0xFFF → HaltsWith (.ldr x) s 4#3)

/-- R148, R149: STR then LDR through the same I round-trips, whatever the registers were set to between. -/
def Obligations.StrThenLdrRoundTrips : Prop :=
  ∀ (s t u : State) (x : Nibble), s.params.regblockBias + s.i.toNat + x.toNat ≤ 0xFFF →
    exec (.str x) s = .next t → u.i = s.i → u.params = s.params → (∀ a, u.ramByte a = t.ramByte a) →
    ∃ w, exec (.ldr x) u = .next w ∧ ∀ r : Nibble, r.toNat ≤ x.toNat → w.reg r = s.reg r
end

