-- ==== Sys2Proof/Laws/Memory.lean ====
section
/-! SUPPORT. What one read of a memory sees after one write, and that every memory operation keeps the canonical
form. The read laws hold of every list of cells, canonical or not. -/

namespace Sys2Proof.Machine

theorem Memory.lookup_insert_self (m : Memory) (a : Nat) (b : Byte) : (m.insert a b).lookup a = some b := by
  induction m with
  | nil => simp [Memory.insert, Memory.lookup]
  | cons cell m ih =>
    simp only [Memory.insert]
    split
    · simp [Memory.lookup]
    · split
      · simp [Memory.lookup]
      · rename_i h; simp [Memory.lookup, Ne.symm h, ih]

theorem Memory.lookup_insert_of_ne (m : Memory) {a k : Nat} (b : Byte) (h : k ≠ a) :
    (m.insert a b).lookup k = m.lookup k := by
  induction m with
  | nil => simp [Memory.insert, Memory.lookup, Ne.symm h]
  | cons cell m ih =>
    simp only [Memory.insert]
    split
    · simp [Memory.lookup, Ne.symm h]
    · split
      · rename_i hc; subst hc; simp [Memory.lookup, Ne.symm h]
      · simp [Memory.lookup, ih]

theorem Memory.lookup_erase_self (m : Memory) (a : Nat) : (m.erase a).lookup a = none := by
  induction m with
  | nil => rfl
  | cons cell m ih =>
    by_cases hc : cell.1 = a
    · simpa [Memory.erase, hc] using ih
    · simpa [Memory.erase, hc, Memory.lookup] using ih

theorem Memory.lookup_erase_of_ne (m : Memory) {a k : Nat} (h : k ≠ a) :
    (m.erase a).lookup k = m.lookup k := by
  induction m with
  | nil => rfl
  | cons cell m ih =>
    by_cases hc : cell.1 = a
    · have hk : cell.1 ≠ k := fun e => h (e.symm.trans hc)
      simpa [Memory.erase, hc, Memory.lookup, Ne.symm h] using ih
    · simp only [Memory.erase, Memory.lookup, List.filter_cons, bne_iff_ne, ne_eq, hc, not_false_eq_true, if_true] at ih ⊢
      rw [ih]

/-- A read after a write to the same address gives the byte written, listed or not. -/
theorem Memory.lookup_write_self (u : Option Byte) (m : Memory) (a : Nat) (b : Byte) :
    ((m.write u a b).lookup a).or u = some b := by
  unfold Memory.write
  split
  · rename_i h; simp [Memory.lookup_erase_self, h]
  · simp [Memory.lookup_insert_self]

/-- A write leaves every other address alone. -/
theorem Memory.lookup_write_of_ne (u : Option Byte) (m : Memory) {a k : Nat} (b : Byte) (h : k ≠ a) :
    (m.write u a b).lookup k = m.lookup k := by
  unfold Memory.write
  split
  · exact m.lookup_erase_of_ne h
  · exact m.lookup_insert_of_ne b h

theorem Memory.mem_insert {m : Memory} {a : Nat} {b : Byte} {p : Host.Cell} (h : p ∈ m.insert a b) :
    p = (a, b) ∨ p ∈ m := by
  induction m with
  | nil => simpa [Memory.insert] using h
  | cons cell m ih =>
    simp only [Memory.insert] at h
    split at h
    · simpa using h
    · split at h
      · rcases List.mem_cons.1 h with h | h
        · exact .inl h
        · exact .inr (List.mem_cons_of_mem _ h)
      · rcases List.mem_cons.1 h with h | h
        · exact .inr (h ▸ List.mem_cons_self)
        · exact (ih h).imp_right (List.mem_cons_of_mem _)

theorem Memory.sorted_insert {m : Memory} (a : Nat) (b : Byte) (h : m.Pairwise (fun p q => p.1 < q.1)) :
    (m.insert a b).Pairwise (fun p q => p.1 < q.1) := by
  induction m with
  | nil => simp [Memory.insert]
  | cons cell m ih =>
    obtain ⟨hc, hm⟩ := List.pairwise_cons.1 h
    simp only [Memory.insert]
    split
    · rename_i hlt
      refine List.pairwise_cons.2 ⟨fun q hq => ?_, h⟩
      rcases List.mem_cons.1 hq with rfl | hq
      · exact hlt
      · exact Nat.lt_trans hlt (hc q hq)
    · split
      · rename_i heq
        exact List.pairwise_cons.2 ⟨fun q hq => heq ▸ hc q hq, hm⟩
      · rename_i hlt hne
        refine List.pairwise_cons.2 ⟨fun q hq => ?_, ih hm⟩
        rcases Memory.mem_insert hq with rfl | hq
        · simp only; omega
        · exact hc q hq

theorem Memory.wf_nil (size : Nat) (u : Option Byte) : Memory.wf size u [] := by simp [Memory.wf]

theorem Memory.wf_insert {size : Nat} {u : Option Byte} {m : Memory} {a : Nat} {b : Byte} (ha : a < size)
    (hb : u ≠ some b) (h : Memory.wf size u m) : Memory.wf size u (m.insert a b) := by
  refine ⟨Memory.sorted_insert a b h.1, fun p hp => ?_⟩
  rcases Memory.mem_insert hp with rfl | hp
  · exact ⟨ha, hb⟩
  · exact h.2 p hp

theorem Memory.wf_erase {size : Nat} {u : Option Byte} {m : Memory} (a : Nat) (h : Memory.wf size u m) :
    Memory.wf size u (m.erase a) :=
  ⟨h.1.filter _, fun p hp => h.2 p (List.mem_of_mem_filter hp)⟩

/-- Every write keeps the canonical form. -/
theorem Memory.wf_write {size : Nat} {u : Option Byte} {m : Memory} {a : Nat} {b : Byte} (ha : a < size)
    (h : Memory.wf size u m) : Memory.wf size u (m.write u a b) := by
  unfold Memory.write
  split
  · exact Memory.wf_erase a h
  · rename_i hb; exact Memory.wf_insert ha hb h

theorem Memory.lookup_eq_none {m : Memory} {a : Nat} (h : ∀ p ∈ m, p.1 ≠ a) : m.lookup a = none := by
  induction m with
  | nil => rfl
  | cons cell m ih =>
    have h1 := h cell List.mem_cons_self
    simp [Memory.lookup, h1, ih fun p hp => h p (List.mem_cons_of_mem _ hp)]

theorem Memory.lookup_cons_self (a : Nat) (b : Byte) (m : Memory) : Memory.lookup ((a, b) :: m) a = some b := by
  simp [Memory.lookup]

/-- Equal memories are equal data: two canonical lists that list the same bytes are the same list. -/
theorem Memory.ext_of_sorted : ∀ {m m' : Memory}, m.Pairwise (fun p q => p.1 < q.1) →
    m'.Pairwise (fun p q => p.1 < q.1) → (∀ a, m.lookup a = m'.lookup a) → m = m'
  | [], [], _, _, _ => rfl
  | [], (a, b) :: m', _, _, h => by simpa [Memory.lookup] using h a
  | (a, b) :: m, [], _, _, h => by simpa [Memory.lookup] using h a
  | (a, b) :: m, (a', b') :: m', hs, hs', h => by
    obtain ⟨hc, hm⟩ := List.pairwise_cons.1 hs
    obtain ⟨hc', hm'⟩ := List.pairwise_cons.1 hs'
    have haa : a = a' := by
      rcases Nat.lt_trichotomy a a' with hlt | heq | hlt
      · have := h a
        rw [Memory.lookup_cons_self, Memory.lookup_eq_none] at this
        · cases this
        · intro p hp
          rcases List.mem_cons.1 hp with rfl | hp
          · simp only; omega
          · have := hc' p hp; simp only at this; omega
      · exact heq
      · have := (h a').symm
        rw [Memory.lookup_cons_self, Memory.lookup_eq_none] at this
        · cases this
        · intro p hp
          rcases List.mem_cons.1 hp with rfl | hp
          · simp only; omega
          · have := hc p hp; simp only at this; omega
    subst haa
    have hb : b = b' := by simpa [Memory.lookup] using h a
    subst hb
    refine congrArg _ (Memory.ext_of_sorted hm hm' fun k => ?_)
    by_cases hk : a = k
    · subst hk
      rw [Memory.lookup_eq_none fun p hp => (Nat.ne_of_lt (hc p hp)).symm,
        Memory.lookup_eq_none fun p hp => (Nat.ne_of_lt (hc' p hp)).symm]
    · simpa [Memory.lookup, hk] using h k

end Sys2Proof.Machine
end

