-- ==== Sys2Proof/Laws/Ops.lean ====
section
/-! SUPPORT. What each named operation does, said once: the provers cite these instead of unfolding the operations. -/

namespace Sys2Proof.Machine

/-! Registers. -/

@[simp] theorem State.reg_setReg_self (s : State) (r : Nibble) (b : Byte) : (s.setReg r b).reg r = b := by
  simp [State.reg, State.setReg]

theorem State.reg_setReg_of_ne (s : State) {r q : Nibble} (b : Byte) (h : q ≠ r) :
    (s.setReg r b).reg q = s.reg q := by
  have hn : r.toNat ≠ q.toNat := fun e => h (BitVec.eq_of_toNat_eq e.symm)
  simp [State.reg, State.setReg, hn]

theorem State.reg_setReg (s : State) (r q : Nibble) (b : Byte) :
    (s.setReg r b).reg q = if q = r then b else s.reg q := by
  split
  · rename_i h; subst h; exact s.reg_setReg_self q b
  · rename_i h; exact s.reg_setReg_of_ne b h

/-- A register is read from the register file alone. -/
theorem State.reg_congr {s t : State} (h : t.v = s.v) (r : Nibble) : t.reg r = s.reg r := by
  simp [State.reg, h]

@[simp] theorem State.reg_advance (s : State) (r : Nibble) : s.advance.reg r = s.reg r := rfl
@[simp] theorem State.reg_skip (s : State) (r : Nibble) : s.skip.reg r = s.reg r := rfl
@[simp] theorem State.reg_setPc (s : State) (w : Word) (r : Nibble) : (s.setPc w).reg r = s.reg r := rfl
@[simp] theorem State.reg_setI (s : State) (w : Word) (r : Nibble) : (s.setI w).reg r = s.reg r := rfl
@[simp] theorem State.reg_setDt (s : State) (b : Byte) (r : Nibble) : (s.setDt b).reg r = s.reg r := rfl
@[simp] theorem State.reg_setSt (s : State) (b : Byte) (r : Nibble) : (s.setSt b).reg r = s.reg r := rfl
@[simp] theorem State.reg_clearVram (s : State) (r : Nibble) : s.clearVram.reg r = s.reg r := rfl
@[simp] theorem State.reg_halt (s : State) (c : HaltCause) (r : Nibble) : (s.halt c).reg r = s.reg r := rfl

/-! RAM. -/

theorem inRam_iff (a : Nat) : inRam a = true ↔ a ≤ 0xFFF := by
  unfold inRam
  rw [decide_eq_true_iff]
  change a < 4096 ↔ _
  omega

/-- Only the RAM field decides what RAM reads as. -/
theorem State.ramByte_congr {s t : State} (h : t.ram = s.ram) (a : Nat) : t.ramByte a = s.ramByte a := by
  simp [State.ramByte, h]

@[simp] theorem State.ramByte_advance (s : State) (a : Nat) : s.advance.ramByte a = s.ramByte a := rfl
@[simp] theorem State.ramByte_skip (s : State) (a : Nat) : s.skip.ramByte a = s.ramByte a := rfl
@[simp] theorem State.ramByte_setReg (s : State) (r : Nibble) (b : Byte) (a : Nat) :
    (s.setReg r b).ramByte a = s.ramByte a := rfl
@[simp] theorem State.ramByte_halt (s : State) (c : HaltCause) (a : Nat) : (s.halt c).ramByte a = s.ramByte a := rfl

theorem State.ramByte_setRamByte_self (s : State) {a : Nat} (b : Byte) (h : inRam a = true) :
    (s.setRamByte a b).ramByte a = b := by
  have := s.ram.lookup_write_self ramUnlisted a b
  simp only [ramUnlisted, Option.or_none] at this
  simp [State.setRamByte, State.ramByte, h, ramUnlisted, this]

theorem State.ramByte_setRamByte_of_ne (s : State) {a k : Nat} (b : Byte) (h : k ≠ a) :
    (s.setRamByte a b).ramByte k = s.ramByte k := by
  unfold State.setRamByte State.ramByte
  split
  · simp [Memory.lookup_write_of_ne _ _ b h]
  · rfl

/-- A write to RAM touches the RAM field alone. -/
theorem State.setRamByte_eq (s : State) (a : Nat) (b : Byte) :
    s.setRamByte a b = { s with ram := (s.setRamByte a b).ram } := by
  unfold State.setRamByte
  split <;> rfl

@[simp] theorem State.reg_setRamByte (s : State) (a : Nat) (b : Byte) (r : Nibble) :
    (s.setRamByte a b).reg r = s.reg r := by
  rw [State.setRamByte_eq]; rfl

/-- A write to RAM keeps its canonical form. -/
theorem State.setRamByte_wf (s : State) (a : Nat) (b : Byte) (h : Memory.wf Config.ramSize ramUnlisted s.ram) :
    Memory.wf Config.ramSize ramUnlisted (s.setRamByte a b).ram := by
  unfold State.setRamByte
  split
  · rename_i ha
    exact Memory.wf_write (by simpa [inRam] using ha) h
  · exact h

/-- Bytes written one after another touch the RAM field alone. -/
theorem State.setRamBytes_eq (bs : List Byte) : ∀ (s : State) (a : Nat),
    s.setRamBytes a bs = { s with ram := (s.setRamBytes a bs).ram } := by
  induction bs with
  | nil => intros; rfl
  | cons b bs ih =>
    intro s a
    rw [State.setRamBytes, ih, State.setRamByte_eq]

/-- What RAM reads as after bytes were written at rising addresses. -/
theorem State.ramByte_setRamBytes (bs : List Byte) : ∀ (s : State) (a k : Nat), a + bs.length ≤ Config.ramSize →
    (s.setRamBytes a bs).ramByte k = if h : a ≤ k ∧ k < a + bs.length then bs[k - a]'(by omega) else s.ramByte k := by
  induction bs with
  | nil => intro s a k _; simp [State.setRamBytes]
  | cons b bs ih =>
    intro s a k hlen
    simp only [List.length_cons] at hlen
    rw [State.setRamBytes, ih _ _ _ (by omega)]
    have hin : inRam a = true := by simp [inRam]; omega
    by_cases hk : k = a
    · subst hk
      simp [State.ramByte_setRamByte_self _ _ hin]
    · by_cases h1 : a + 1 ≤ k ∧ k < a + 1 + bs.length
      · have h2 : a ≤ k ∧ k < a + (b :: bs).length := by simp; omega
        have h3 : k - a = (k - (a + 1)) + 1 := by omega
        simp only [h1, h2, dite_true, and_self, h3, List.getElem_cons_succ]
      · have h2 : ¬(a ≤ k ∧ k < a + (b :: bs).length) := by simp; omega
        rw [dif_neg h1, dif_neg h2, State.ramByte_setRamByte_of_ne _ _ hk]

theorem State.setRamBytes_wf (bs : List Byte) : ∀ (s : State) (a : Nat),
    Memory.wf Config.ramSize ramUnlisted s.ram → Memory.wf Config.ramSize ramUnlisted (s.setRamBytes a bs).ram := by
  induction bs with
  | nil => intro s a h; exact h
  | cons b bs ih => intro s a h; exact ih _ _ (s.setRamByte_wf a b h)

/-! VRAM. -/

theorem Memory.vramByte_setVramByte_self (m : Memory) (k : Nat) (b : Byte) : (m.setVramByte k b).vramByte k = b := by
  have h := m.lookup_write_self vramUnlisted k b
  unfold Memory.vramByte Memory.setVramByte
  cases hl : (m.write vramUnlisted k b).lookup k with
  | none => rw [hl] at h; simpa [vramUnlisted] using h
  | some c => rw [hl] at h; simpa using h

theorem Memory.vramByte_setVramByte_of_ne (m : Memory) {k j : Nat} (b : Byte) (h : j ≠ k) :
    (m.setVramByte k b).vramByte j = m.vramByte j := by
  simp [Memory.vramByte, Memory.setVramByte, Memory.lookup_write_of_ne _ _ b h]

theorem pixOffset_eq (x y : Nat) : pixOffset x y = 3 * (64 * y + x) := rfl

/-- The three bytes of a pixel after it was written. -/
theorem Memory.vramByte_pixWrite_self (m : Memory) (x y : Nat) (lit : Bool) {c : Nat} (hc : c < 3) :
    (m.pixWrite x y lit).vramByte (pixOffset x y + c) = pixelByte lit := by
  unfold Memory.pixWrite
  rcases (by omega : c = 0 ∨ c = 1 ∨ c = 2) with rfl | rfl | rfl
  · rw [Memory.vramByte_setVramByte_of_ne _ _ (by omega), Memory.vramByte_setVramByte_of_ne _ _ (by omega)]
    exact Memory.vramByte_setVramByte_self _ _ _
  · rw [Memory.vramByte_setVramByte_of_ne _ _ (by omega)]
    exact Memory.vramByte_setVramByte_self _ _ _
  · exact Memory.vramByte_setVramByte_self _ _ _

/-- Bytes outside the written pixel are left alone. -/
theorem Memory.vramByte_pixWrite_of_ne (m : Memory) (x y : Nat) (lit : Bool) {k : Nat}
    (h : k < pixOffset x y ∨ pixOffset x y + 3 ≤ k) : (m.pixWrite x y lit).vramByte k = m.vramByte k := by
  unfold Memory.pixWrite
  rw [Memory.vramByte_setVramByte_of_ne _ _ (by omega), Memory.vramByte_setVramByte_of_ne _ _ (by omega),
    Memory.vramByte_setVramByte_of_ne _ _ (by omega)]

theorem pixelByte_ne_zero (lit : Bool) : (pixelByte lit != 0x00#8) = lit := by cases lit <;> decide

@[simp] theorem Memory.pixRead_pixWrite_self (m : Memory) (x y : Nat) (lit : Bool) :
    (m.pixWrite x y lit).pixRead x y = lit := by
  unfold Memory.pixRead
  rw [show pixOffset x y = pixOffset x y + 0 from rfl, Memory.vramByte_pixWrite_self _ _ _ _ (by omega),
    pixelByte_ne_zero]

/-- Two different pixels of the grid share no byte. -/
theorem pixOffset_apart {x y x' y' : Nat} (hx : x < 64) (hx' : x' < 64) (h : ¬(x = x' ∧ y = y')) :
    pixOffset x y + 3 ≤ pixOffset x' y' ∨ pixOffset x' y' + 3 ≤ pixOffset x y := by
  simp only [pixOffset_eq]
  rcases Nat.lt_trichotomy y y' with h1 | h1 | h1
  · left; omega
  · subst h1
    have : x ≠ x' := fun e => h ⟨e, rfl⟩
    omega
  · right; omega

theorem Memory.pixRead_pixWrite_of_ne (m : Memory) {x y x' y' : Nat} (lit : Bool) (hx : x < 64) (hx' : x' < 64)
    (h : ¬(x' = x ∧ y' = y)) : (m.pixWrite x y lit).pixRead x' y' = m.pixRead x' y' := by
  unfold Memory.pixRead
  rw [Memory.vramByte_pixWrite_of_ne]
  have := pixOffset_apart hx' hx h
  omega

theorem Memory.setVramByte_wf {m : Memory} {k : Nat} (b : Byte) (hk : k < Config.vramSize)
    (h : Memory.wf Config.vramSize vramUnlisted m) : Memory.wf Config.vramSize vramUnlisted (m.setVramByte k b) :=
  Memory.wf_write hk h

/-- Writing a pixel of the grid keeps the canonical form. -/
theorem Memory.pixWrite_wf {m : Memory} {x y : Nat} (lit : Bool) (hx : x < 64) (hy : y < 32)
    (h : Memory.wf Config.vramSize vramUnlisted m) : Memory.wf Config.vramSize vramUnlisted (m.pixWrite x y lit) := by
  have hb : pixOffset x y + 3 ≤ Config.vramSize := by simp only [pixOffset_eq, Config.vramSize]; omega
  exact Memory.setVramByte_wf _ (by omega) (Memory.setVramByte_wf _ (by omega) (Memory.setVramByte_wf _ (by omega) h))

@[simp] theorem State.vramByte_clearVram (s : State) (k : Nat) : s.clearVram.vramByte k = 0x00#8 := rfl
@[simp] theorem State.vramByte_advance (s : State) (k : Nat) : s.advance.vramByte k = s.vramByte k := rfl
@[simp] theorem State.vramByte_setReg (s : State) (r : Nibble) (b : Byte) (k : Nat) :
    (s.setReg r b).vramByte k = s.vramByte k := rfl
@[simp] theorem State.vramByte_halt (s : State) (c : HaltCause) (k : Nat) : (s.halt c).vramByte k = s.vramByte k := rfl

/-! Halts and the stack. -/

/-- Everything raising or not raising a halt can lead to: always a next state. -/
theorem State.orHalt_cases {s : State} {r : Except HaltCause State} {t : State} (h : s.orHalt r = .next t) :
    r = .ok t ∨ ∃ c, r = .error c ∧ t = s.halt c := by
  cases r with
  | ok u => left; simpa [State.orHalt] using h
  | error c => right; exact ⟨c, rfl, by simpa [State.orHalt] using h.symm⟩

@[simp] theorem State.orHalt_ok (s t : State) : s.orHalt (.ok t) = .next t := rfl
@[simp] theorem State.orHalt_error (s : State) (c : HaltCause) : s.orHalt (.error c) = .next (s.halt c) := rfl

/-- Everything a push can do. -/
theorem State.push_cases (s : State) (ret : Word) :
    (s.sp = 15#4 ∧ s.push ret = .error .stackOverflow) ∨
    (s.sp ≠ 15#4 ∧ s.push ret = .ok { s with stack := s.stack.set s.sp.toNat ret s.sp.isLt, sp := s.sp + 1#4 }) := by
  have hiff : s.sp.toNat = Config.stackMaxDepth ↔ s.sp = 15#4 := by
    simp only [Config.stackMaxDepth]
    constructor
    · intro h; exact BitVec.eq_of_toNat_eq (by simpa using h)
    · intro h; rw [h]; rfl
  by_cases h : s.sp = 15#4
  · exact .inl ⟨h, by rw [State.push, if_pos (hiff.2 h)]⟩
  · exact .inr ⟨h, by rw [State.push, if_neg (fun e => h (hiff.1 e))]⟩

/-- Everything a pop can do. -/
theorem State.pop_cases (s : State) :
    (s.sp = 0#4 ∧ s.pop = .error .stackUnderflow) ∨
    (s.sp ≠ 0#4 ∧ s.pop = .ok { s with sp := s.sp - 1#4, pc := s.stack[(s.sp - 1#4).toNat]'(s.sp - 1#4).isLt }) := by
  by_cases h : s.sp = 0#4
  · exact .inl ⟨h, if_pos h⟩
  · exact .inr ⟨h, if_neg h⟩

end Sys2Proof.Machine
end

