-- ==== Sys2Proof/Laws/Blocks.lean ====
section
/-! SUPPORT. What storing and loading a block of registers does (spec/47_misc_F.md R148, R149). -/

namespace Sys2Proof.Machine

theorem State.storeBlock_succ (s : State) (base count : Nat) :
    s.storeBlock base (count + 1) =
      (s.storeBlock base count).setRamByte (base + count) (s.reg (BitVec.ofNat 4 count)) := by
  simp [State.storeBlock, List.range_succ]

/-- A block store touches the RAM field alone. -/
theorem State.storeBlock_eq (s : State) (base count : Nat) :
    s.storeBlock base count = { s with ram := (s.storeBlock base count).ram } := by
  induction count with
  | zero => rfl
  | succ count ih => rw [State.storeBlock_succ, State.setRamByte_eq, ih]

theorem State.storeBlock_wf (s : State) (base count : Nat) (h : Memory.wf Config.ramSize ramUnlisted s.ram) :
    Memory.wf Config.ramSize ramUnlisted (s.storeBlock base count).ram := by
  induction count with
  | zero => exact h
  | succ count ih => rw [State.storeBlock_succ]; exact State.setRamByte_wf _ _ _ ih

/-- What RAM reads as after a block store that stays inside RAM. -/
theorem State.ramByte_storeBlock (s : State) (base count a : Nat) (h : base + count ≤ 4096) :
    (s.storeBlock base count).ramByte a =
      if base ≤ a ∧ a < base + count then s.reg (BitVec.ofNat 4 (a - base)) else s.ramByte a := by
  induction count with
  | zero => rw [if_neg (by omega)]; rfl
  | succ count ih =>
    rw [State.storeBlock_succ]
    by_cases ha : a = base + count
    · subst ha
      rw [State.ramByte_setRamByte_self _ _ ((inRam_iff _).2 (by omega)), if_pos (by omega), Nat.add_sub_cancel_left]
    · rw [State.ramByte_setRamByte_of_ne _ _ ha, ih (by omega)]
      by_cases hb : base ≤ a ∧ a < base + count
      · rw [if_pos hb, if_pos (by omega)]
      · rw [if_neg hb, if_neg (by omega)]

theorem State.loadBlock_succ (s : State) (base count : Nat) :
    s.loadBlock base (count + 1) =
      (s.loadBlock base count).setReg (BitVec.ofNat 4 count) (s.ramByte (base + count)) := by
  simp [State.loadBlock, List.range_succ]

/-- A block load touches the register file alone. -/
theorem State.loadBlock_eq (s : State) (base count : Nat) :
    s.loadBlock base count = { s with v := (s.loadBlock base count).v } := by
  induction count with
  | zero => rfl
  | succ count ih =>
    rw [State.loadBlock_succ, ih]
    rfl

/-- What the registers hold after a block load of at most sixteen. -/
theorem State.reg_loadBlock (s : State) (base count : Nat) (r : Nibble) (h : count ≤ 16) :
    (s.loadBlock base count).reg r = if r.toNat < count then s.ramByte (base + r.toNat) else s.reg r := by
  induction count with
  | zero => rw [if_neg (by omega)]; rfl
  | succ count ih =>
    have hn : (BitVec.ofNat 4 count).toNat = count := by rw [BitVec.toNat_ofNat]; omega
    rw [State.loadBlock_succ, State.reg_setReg]
    by_cases hr : r = BitVec.ofNat 4 count
    · have hrn : r.toNat = count := by rw [hr, hn]
      rw [if_pos hr, if_pos (by omega), hrn]
    · have hrn : r.toNat ≠ count := fun e => hr (BitVec.eq_of_toNat_eq (e.trans hn.symm))
      rw [if_neg hr, ih (by omega)]
      by_cases hlt : r.toNat < count
      · rw [if_pos hlt, if_pos (by omega)]
      · rw [if_neg hlt, if_neg (by omega)]

end Sys2Proof.Machine
end

