-- ==== Sys2Proof/Laws/Decode.lean ====
section
/-! SUPPORT. What the fields of an encoded word are, format by format. -/

namespace Sys2Proof

section
variable (t x y n : Nibble) (kk : Byte) (nnn : Addr)

/-- The bits of a word of format NNN. -/
theorem getLsbD_encodeNNN (i : Nat) :
    (encodeNNN t nnn).getLsbD i = if i < 12 then nnn.getLsbD i else t.getLsbD (i - 12) :=
  BitVec.getLsbD_append

/-- The bits of a word of format XKK. -/
theorem getLsbD_encodeXKK (i : Nat) : (encodeXKK t x kk).getLsbD i =
    if i < 8 then kk.getLsbD i else if i - 8 < 4 then x.getLsbD (i - 8) else t.getLsbD (i - 8 - 4) :=
  (BitVec.getLsbD_append (x := t ++ x) (y := kk)).trans (by rw [BitVec.getLsbD_append])

/-- The bits of a word of format XYN. -/
theorem getLsbD_encodeXYN (i : Nat) : (encodeXYN t x y n).getLsbD i =
    if i < 4 then n.getLsbD i else if i - 4 < 4 then y.getLsbD (i - 4)
    else if i - 4 - 4 < 4 then x.getLsbD (i - 4 - 4) else t.getLsbD (i - 4 - 4 - 4) :=
  (BitVec.getLsbD_append (x := t ++ x ++ y) (y := n)).trans (by rw [BitVec.getLsbD_append, BitVec.getLsbD_append])

/-- The bits of a word made of two bytes. -/
theorem getLsbD_wordOfBytes (hi lo : Byte) (i : Nat) :
    (wordOfBytes hi lo).getLsbD i = if i < 8 then lo.getLsbD i else hi.getLsbD (i - 8) :=
  BitVec.getLsbD_append

@[simp] theorem fieldT_encodeNNN : fieldT (encodeNNN t nnn) = t := by
  ext i h; simp [fieldT, getLsbD_encodeNNN, h]
@[simp] theorem fieldNNN_encodeNNN : fieldNNN (encodeNNN t nnn) = nnn := by
  ext i h; simp [fieldNNN, getLsbD_encodeNNN, h]
@[simp] theorem fieldT_encodeXKK : fieldT (encodeXKK t x kk) = t := by
  ext i h
  simp only [fieldT, BitVec.getElem_extractLsb', getLsbD_encodeXKK]
  rw [if_neg (by omega), if_neg (by omega), show 12 + i - 8 - 4 = i by omega, BitVec.getLsbD_eq_getElem h]
@[simp] theorem fieldX_encodeXKK : fieldX (encodeXKK t x kk) = x := by
  ext i h; simp [fieldX, getLsbD_encodeXKK, h]
@[simp] theorem fieldKK_encodeXKK : fieldKK (encodeXKK t x kk) = kk := by
  ext i h; simp [fieldKK, getLsbD_encodeXKK, h]
@[simp] theorem fieldT_encodeXYN : fieldT (encodeXYN t x y n) = t := by
  ext i h
  simp only [fieldT, BitVec.getElem_extractLsb', getLsbD_encodeXYN]
  rw [if_neg (by omega), if_neg (by omega), if_neg (by omega), show 12 + i - 4 - 4 - 4 = i by omega,
    BitVec.getLsbD_eq_getElem h]
@[simp] theorem fieldX_encodeXYN : fieldX (encodeXYN t x y n) = x := by
  ext i h
  simp only [fieldX, BitVec.getElem_extractLsb', getLsbD_encodeXYN]
  rw [if_neg (by omega), if_neg (by omega), if_pos (by omega), show 8 + i - 4 - 4 = i by omega,
    BitVec.getLsbD_eq_getElem h]
@[simp] theorem fieldY_encodeXYN : fieldY (encodeXYN t x y n) = y := by
  ext i h; simp [fieldY, getLsbD_encodeXYN, h]
@[simp] theorem fieldN_encodeXYN : fieldN (encodeXYN t x y n) = n := by
  ext i h; simp [fieldN, getLsbD_encodeXYN, h]

end

/-- A word is its fields, read in format NNN. -/
theorem encodeNNN_fields (op : Word) : encodeNNN (fieldT op) (fieldNNN op) = op := by
  refine BitVec.eq_of_getLsbD_eq fun i h => ?_
  rw [getLsbD_encodeNNN]
  split
  · rename_i h1; simp [fieldNNN, h1]
  · have h1 : i - 12 < 4 := by omega
    have h2 : 12 + (i - 12) = i := by omega
    simp [fieldT, h1, h2]

/-- A word is its fields, read in format XKK. -/
theorem encodeXKK_fields (op : Word) : encodeXKK (fieldT op) (fieldX op) (fieldKK op) = op := by
  refine BitVec.eq_of_getLsbD_eq fun i h => ?_
  rw [getLsbD_encodeXKK]
  split
  · rename_i h1; simp [fieldKK, h1]
  · split
    · rename_i h1
      have h2 : 8 + (i - 8) = i := by omega
      simp [fieldX, h1, h2]
    · have h1 : i - 8 - 4 < 4 := by omega
      have h2 : 12 + (i - 8 - 4) = i := by omega
      simp [fieldT, h1, h2]

/-- A word is its fields, read in format XYN. -/
theorem encodeXYN_fields (op : Word) : encodeXYN (fieldT op) (fieldX op) (fieldY op) (fieldN op) = op := by
  refine BitVec.eq_of_getLsbD_eq fun i h => ?_
  rw [getLsbD_encodeXYN]
  split
  · rename_i h1; simp [fieldN, h1]
  · split
    · rename_i h1
      have h2 : 4 + (i - 4) = i := by omega
      simp [fieldY, h1, h2]
    · split
      · rename_i h1
        have h2 : 8 + (i - 4 - 4) = i := by omega
        simp [fieldX, h1, h2]
      · have h1 : i - 4 - 4 - 4 < 4 := by omega
        have h2 : 12 + (i - 4 - 4 - 4) = i := by omega
        simp [fieldT, h1, h2]

/-- A nibble with a known number is a known nibble. -/
theorem nibble_eq {b : Nibble} {n : Nat} (h : b.toNat = n) : b = BitVec.ofNat 4 n :=
  BitVec.eq_of_toNat_eq (by rw [BitVec.toNat_ofNat, ← h, Nat.mod_eq_of_lt b.isLt])

/-- A byte with a known number is a known byte. -/
theorem byte_eq {b : Byte} {n : Nat} (h : b.toNat = n) : b = BitVec.ofNat 8 n :=
  BitVec.eq_of_toNat_eq (by rw [BitVec.toNat_ofNat, ← h, Nat.mod_eq_of_lt b.isLt])

/-- A word is its high byte followed by its low byte. -/
@[simp] theorem wordOfBytes_high_low (op : Word) : wordOfBytes (highByte op) (lowByte op) = op := by
  refine BitVec.eq_of_getLsbD_eq fun i h => ?_
  rw [getLsbD_wordOfBytes]
  split
  · rename_i h8; simp [lowByte, h8]
  · have h8 : i - 8 < 8 := by omega
    have h9 : 8 + (i - 8) = i := by omega
    simp [highByte, h8, h9]

@[simp] theorem highByte_wordOfBytes (hi lo : Byte) : highByte (wordOfBytes hi lo) = hi := by
  ext i h; simp [highByte, getLsbD_wordOfBytes, h]

@[simp] theorem lowByte_wordOfBytes (hi lo : Byte) : lowByte (wordOfBytes hi lo) = lo := by
  ext i h; simp [lowByte, getLsbD_wordOfBytes, h]

end Sys2Proof
end

