-- ==== Sys2Proof/Laws/Flags.lean ====
section
/-! SUPPORT. The flags as numbers, and what the two writes of a flag-writing instruction leave. -/

namespace Sys2Proof.Machine

theorem flagByte_eq (b : Bool) : flagByte b = if b = true then 0x01#8 else 0x00#8 := rfl

theorem carryFlag_eq (a b : Byte) : carryFlag a b = if a.toNat + b.toNat > 255 then 0x01#8 else 0x00#8 := by
  simp [carryFlag, flagByte]

theorem notBorrowFlag_eq (a b : Byte) : notBorrowFlag a b = if a.toNat ≥ b.toNat then 0x01#8 else 0x00#8 := by
  simp [notBorrowFlag, flagByte]

theorem lowBitFlag_toNat (a : Byte) : (lowBitFlag a).toNat = a.toNat % 2 := by
  simp [lowBitFlag]

theorem highBitFlag_toNat (a : Byte) : (highBitFlag a).toNat = a.toNat / 128 := by
  simp [highBitFlag, Nat.shiftRight_eq_div_pow]

/-- The result lands last: it is what X holds, flag register or not (R105). -/
@[simp] theorem State.reg_writeFlagged_result (s : State) (x : Nibble) (f r : Byte) :
    (s.writeFlagged x f r).reg x = r := by
  simp [State.writeFlagged]

/-- The flag stays unless X is F (R105). -/
theorem State.reg_writeFlagged_flag (s : State) {x : Nibble} (f r : Byte) (h : x ≠ vf) :
    (s.writeFlagged x f r).reg vf = f := by
  simp [State.writeFlagged, State.reg_setReg_of_ne _ _ (Ne.symm h)]

theorem State.reg_writeFlagged_of_ne (s : State) {x q : Nibble} (f r : Byte) (hx : q ≠ x) (hf : q ≠ vf) :
    (s.writeFlagged x f r).reg q = s.reg q := by
  simp [State.writeFlagged, State.reg_setReg_of_ne _ _ hx, State.reg_setReg_of_ne _ _ hf]

/-- The two writes touch the register file alone. -/
theorem State.writeFlagged_eq (s : State) (x : Nibble) (f r : Byte) :
    s.writeFlagged x f r = { s with v := (s.writeFlagged x f r).v } := rfl

end Sys2Proof.Machine
end

