-- ==== Sys2Proof/Laws/Loop.lean ====
section
/-! SUPPORT. What fetching, closing the gate and taking an input do, said once. -/

namespace Sys2Proof.Machine

/-- Everything a fetch can do. -/
theorem State.fetch_cases (s : State) :
    (s.pc.toNat ≤ 0xFFE ∧
      s.fetch = .ok { s with opcode := wordOfBytes (s.ramByte s.pc.toNat) (s.ramByte (s.pc.toNat + 1)) }) ∨
    (s.pc.toNat > 0xFFE ∧ s.fetch = .error .addrOutOfRange) := by
  unfold State.fetch State.memReadWord
  by_cases h : inRam (s.pc.toNat + 1) = true
  · left
    exact ⟨by have := (inRam_iff _).1 h; omega, by rw [if_pos h]; rfl⟩
  · right
    exact ⟨by have := mt (inRam_iff _).2 h; omega, by rw [if_neg h]; rfl⟩

/-- Everything an instruction step can do. -/
theorem State.instrStep_cases {s : State} {r : Result} (h : s.instrStep = r) :
    (s.pc.toNat > 0xFFE ∧ r = .next (s.halt .addrOutOfRange)) ∨
    (s.pc.toNat ≤ 0xFFE ∧ ∃ op, op = wordOfBytes (s.ramByte s.pc.toNat) (s.ramByte (s.pc.toNat + 1)) ∧
      ((∃ e, decodeWord op = .error e ∧ r = .next (State.halt { s with opcode := op } .unknownOpcode)) ∨
       (∃ i, decodeWord op = .ok i ∧ r = exec i { s with opcode := op }))) := by
  unfold State.instrStep at h
  rcases s.fetch_cases with ⟨hp, hf⟩ | ⟨hp, hf⟩
  · right
    rw [hf] at h
    refine ⟨hp, _, rfl, ?_⟩
    simp only at h
    split at h
    · rename_i e he; exact .inl ⟨e, he, h.symm⟩
    · rename_i i hi; exact .inr ⟨i, hi, h.symm⟩
  · left
    rw [hf] at h
    exact ⟨hp, h.symm⟩

/-- Closing the gate keeps a next state a next state and changes nothing else. -/
theorem closeGate_next {r : Result} {t : State} (h : closeGate r = .next t) :
    ∃ u, r = .next u ∧ t = { u with gate := false } := by
  cases r with
  | next u => exact ⟨u, rfl, by simpa [closeGate] using h.symm⟩
  | fault f => simp [closeGate] at h
  | refused f => simp [closeGate] at h

/-- Taking an input changes the list of inputs, the counter, the strobes and the frame, and nothing else. -/
theorem State.inputTaken_eq (s : State) : s.inputTaken =
    { s with
      inputs := s.inputTaken.inputs, inputNo := s.inputTaken.inputNo, present := false, frame := none,
      setupError := false } := by
  unfold State.inputTaken
  split <;> rfl

/-- Sampling the inputs of an iteration changes `rnd`, `RUN`, the timers, `present`, the frame and `GATE`, and
nothing else. -/
theorem State.sample_eq (s : State) (t c st : Bool) (b : Byte) : s.sample t c st b =
    { s with
      rnd := b, run := s.run && !st, gate := s.gate || c, present := s.present || t,
      frame := if t then some s.vram else s.frame,
      st := if t then countDown s.st else s.st, dt := if t then countDown s.dt else s.dt } := by
  unfold State.sample State.timerTick
  cases t <;> simp

end Sys2Proof.Machine
end

