-- ==== Sys2Proof/Laws/HostMoves.lean ====
section
/-! SUPPORT. What the host's moves, the reset they perform, the countdown and a loop iteration do, said once. -/

namespace Sys2Proof.Machine

/-- A move of the host on a Stopped machine is itself. -/
theorem State.whileStopped_of_stopped {s : State} (r : Result) (h : s.run = false) : s.whileStopped r = r := by
  rw [State.whileStopped, h]; rfl

/-- Everything a Run request can do (R157). -/
theorem State.runRequest_cases (s : State) :
    (s.run = true ∧ s.runRequest = s) ∨
    (s.run = false ∧ s.attached.all = true ∧ s.runRequest = { s.resetCore with run := true }) ∨
    (s.run = false ∧ s.attached.all = false ∧ s.runRequest = { s with setupError := true }) := by
  unfold State.runRequest
  cases s.run <;> cases s.attached.all <;> simp

/-- Three attach operations that name every port leave everything attached, in any order (R199). -/
theorem Attached.add_three {a b c : Port} (h : ∀ p : Port, p = a ∨ p = b ∨ p = c) (w : Attached) :
    ((w.add a).add b).add c = ⟨true, true, true⟩ := by
  have h1 := h .ram
  have h2 := h .vram
  have h3 := h .display
  clear h
  cases a <;> cases b <;> cases c <;> simp_all [Attached.add]

theorem launchWellFormed_iff (font program : List Byte) :
    launchWellFormed font program = true ↔ font.length = 80 ∧ program.length ≤ 3584 := by
  simp only [launchWellFormed, Bool.and_eq_true, beq_iff_eq, decide_eq_true_eq]

/-- What RAM reads as after a launch (R167). -/
theorem State.ramByte_load (s : State) {font program : List Byte} (h : launchWellFormed font program = true) (a : Nat) :
    (s.load font program).ramByte a =
      if h : 0x200 ≤ a ∧ a < 0x200 + program.length then program[a - 0x200]'(by omega)
      else if h : a < font.length then font[a]
      else s.ramByte a := by
  obtain ⟨hf, hp⟩ := (launchWellFormed_iff font program).1 h
  unfold State.load
  rw [State.ramByte_setRamBytes _ _ _ _ (by change 0x200 + _ ≤ 4096; omega),
    State.ramByte_setRamBytes _ _ _ _ (by change 0 + _ ≤ 4096; omega)]
  simp only [Config.fontBase, Config.programBase, Nat.zero_add, Nat.zero_le, true_and, Nat.sub_zero]

/-- A launch touches the RAM field alone. -/
theorem State.load_eq (s : State) (font program : List Byte) :
    s.load font program = { s with ram := (s.load font program).ram } := by
  unfold State.load
  rw [State.setRamBytes_eq, State.setRamBytes_eq font]

/-- A countdown as a number (R185). -/
theorem countDown_toNat (b : Byte) : (countDown b).toNat = b.toNat - 1 := by
  unfold countDown
  split
  · rename_i h; rw [h]; rfl
  · rename_i h
    have : b.toNat ≠ 0 := fun e => h (BitVec.eq_of_toNat_eq e)
    rw [BitVec.toNat_sub]
    simp only [BitVec.toNat_ofNat]
    omega

/-- Everything a loop iteration can do (R158). -/
theorem State.iterate_cases (s : State) (tmr cpu stop : Bool) (rnd : Byte) :
    (s.run = true ∧ (s.gate = true ∨ cpu = true) ∧
      s.iterate tmr cpu stop rnd = closeGate (s.sample tmr cpu stop rnd).instrStep) ∨
    (s.run = true ∧ s.gate = false ∧ cpu = false ∧
      s.iterate tmr cpu stop rnd = .next (s.sample tmr cpu stop rnd)) ∨
    (s.run = false ∧ s.haltReason = 0#3 ∧ s.iterate tmr cpu stop rnd = .next s) ∨
    (s.run = false ∧ s.haltReason ≠ 0#3 ∧ s.iterate tmr cpu stop rnd = .fault (.halted s.haltReason)) := by
  have hg : (s.sample tmr cpu stop rnd).gate = (s.gate || cpu) := by rw [State.sample_eq]
  unfold State.iterate
  cases hr : s.run
  · by_cases h : s.haltReason = 0#3 <;> simp [h]
  · simp only [hg, if_true]
    cases s.gate <;> cases cpu <;> simp

end Sys2Proof.Machine
end

