-- ==== Sys2Proof/Laws/Operands.lean ====
section
/-! SUPPORT. The coordinate wrap and the checks of a sprite as plain arithmetic. -/

namespace Sys2Proof.Machine

theorem wrapX_eq (p : Parameters) (u : Nat) :
    wrapX p u = if (if p.spriteWrapInclusive then 64 ≤ u else 64 < u) then u - 64 else u := rfl

theorem wrapY_eq (p : Parameters) (w : Nat) :
    wrapY p w = if (if p.spriteWrapInclusive then 32 ≤ w else 32 < w) then w - 32 else w := rfl

/-- Two positions less than a screen apart wrap to the same column only if they are the same (R128). -/
theorem wrapX_inj {p : Parameters} {u u' : Nat} (h : wrapX p u = wrapX p u') (h1 : u < u' + 64) (h2 : u' < u + 64) :
    u = u' := by
  simp only [wrapX_eq] at h
  cases hp : p.spriteWrapInclusive <;> simp only [hp, if_true, if_false, Bool.false_eq_true] at h <;> split at h <;>
    split at h <;> omega

/-- Two positions less than a screen apart wrap to the same line only if they are the same (R128). -/
theorem wrapY_inj {p : Parameters} {w w' : Nat} (h : wrapY p w = wrapY p w') (h1 : w < w' + 32) (h2 : w' < w + 32) :
    w = w' := by
  simp only [wrapY_eq] at h
  cases hp : p.spriteWrapInclusive <;> simp only [hp, if_true, if_false, Bool.false_eq_true] at h <;> split at h <;>
    split at h <;> omega

/-- Check (a) of R127. -/
theorem State.spriteRowsInRam_iff (s : State) (n : Nat) :
    s.spriteRowsInRam n = true ↔ (n ≥ 1 → s.i.toNat + n - 1 ≤ 0xFFF) := by
  simp only [State.spriteRowsInRam, State.dataAddr, Bool.or_eq_true, beq_iff_eq, inRam_iff]
  omega

/-- Check (b) of R127, position by position. -/
theorem spriteInGrid_iff (p : Parameters) (x0 y0 n : Nat) :
    spriteInGrid p x0 y0 n = true ↔ ∀ r, r < n → ∀ c, c < 8 → wrapX p (x0 + c) < 64 ∧ wrapY p (y0 + r) < 32 := by
  simp only [spriteInGrid, List.all_eq_true, List.mem_range, Bool.and_eq_true, decide_eq_true_eq]

/-- Check (b) of R127 with the inclusive wrap and at least one row: x0 is at most 120 and y0 + n at most 64. -/
theorem spriteInGrid_iff_of_inclusive {p : Parameters} (hp : p.spriteWrapInclusive = true) (x0 y0 n : Nat) :
    spriteInGrid p x0 y0 n = true ↔ (n ≥ 1 → x0 ≤ 120 ∧ y0 + n ≤ 64) := by
  simp only [spriteInGrid_iff, wrapX_eq, wrapY_eq, hp, if_true]
  constructor
  · intro h hn
    have h1 := h 0 (by omega) 7 (by omega)
    have h2 := h (n - 1) (by omega) 0 (by omega)
    split at h1 <;> split at h2 <;> split at h2 <;> omega
  · intro h r hr c hc
    have := h (by omega)
    split <;> split <;> omega

theorem glyphAddr_toNat (b : Byte) : (glyphAddr b).toNat = 5 * (b.toNat % 16) := by
  have h := Nat.and_two_pow_sub_one_eq_mod b.toNat 4
  have h2 : (b &&& 0x0F#8).toNat = b.toNat % 16 := by simpa using h
  simp only [glyphAddr, Config.fontBase, Config.fontGlyphBytes, BitVec.toNat_ofNat, h2]
  omega

theorem State.indexedTarget_toNat (s : State) (nnn : Addr) :
    (s.indexedTarget nnn).toNat = nnn.toNat + (s.reg 0x0#4).toNat := by
  have h1 := nnn.isLt
  have h2 := (s.reg 0x0#4).isLt
  simp only [State.indexedTarget, Word.ofAddr, Word.ofByte, BitVec.toNat_add, BitVec.toNat_setWidth]
  omega

end Sys2Proof.Machine
end

