-- ==== Sys2Proof/Laws/PerInstr.lean ====
section
/-! SUPPORT. Statements made per instruction. EncodedIsWellFormed: the word of the instruction is one the opcode map
of spec/30_encoding.md R65 lists. -/

namespace Sys2Proof

/-! The fixed bits of an encoded word, format by format: what its row's mask leaves of it. -/

theorem encodeNNN_family (t : Nibble) (nnn : Addr) : encodeNNN t nnn &&& 0xF000#16 = encodeNNN t 0#12 := by
  refine (BitVec.and_append (x₁ := t) (x₂ := BitVec.allOnes 4) (y₁ := nnn) (y₂ := 0#12)).trans ?_
  rw [BitVec.and_allOnes, BitVec.and_zero]
  rfl

theorem encodeXKK_low (t x : Nibble) (kk : Byte) : encodeXKK t x kk &&& 0xF0FF#16 = encodeXKK t 0#4 kk := by
  refine (BitVec.and_append (x₁ := t ++ x) (x₂ := BitVec.allOnes 4 ++ 0#4) (y₁ := kk) (y₂ := BitVec.allOnes 8)).trans ?_
  rw [BitVec.and_append, BitVec.and_allOnes, BitVec.and_allOnes, BitVec.and_zero]
  rfl

theorem encodeXKK_family (t x : Nibble) (kk : Byte) : encodeXKK t x kk &&& 0xF000#16 = encodeXKK t 0#4 0#8 := by
  refine (BitVec.and_append (x₁ := t ++ x) (x₂ := BitVec.allOnes 4 ++ 0#4) (y₁ := kk) (y₂ := 0#8)).trans ?_
  rw [BitVec.and_append, BitVec.and_allOnes, BitVec.and_zero, BitVec.and_zero]
  rfl

theorem encodeXYN_low (t x y n : Nibble) : encodeXYN t x y n &&& 0xF00F#16 = encodeXYN t 0#4 0#4 n := by
  refine (BitVec.and_append (x₁ := t ++ x ++ y) (x₂ := BitVec.allOnes 4 ++ 0#4 ++ 0#4) (y₁ := n)
    (y₂ := BitVec.allOnes 4)).trans ?_
  rw [BitVec.and_append, BitVec.and_append, BitVec.and_allOnes, BitVec.and_allOnes, BitVec.and_zero,
    BitVec.and_zero]
  rfl

theorem encodeXYN_family (t x y n : Nibble) : encodeXYN t x y n &&& 0xF000#16 = encodeXYN t 0#4 0#4 0#4 := by
  refine (BitVec.and_append (x₁ := t ++ x ++ y) (x₂ := BitVec.allOnes 4 ++ 0#4 ++ 0#4) (y₁ := n) (y₂ := 0#4)).trans ?_
  rw [BitVec.and_append, BitVec.and_append, BitVec.and_allOnes, BitVec.and_zero, BitVec.and_zero,
    BitVec.and_zero]
  rfl

/-- A word of a row of the map is well-formed. -/
theorem wordWellFormed_of_row {op : Word} (r : OpcodeRow) (hr : r ∈ opcodeRows) (h : op &&& r.mask = r.pattern) :
    wordWellFormed op = true :=
  List.any_eq_true.2 ⟨r, hr, by simpa [OpcodeRow.matches] using h⟩

/-- The word of the instruction is one the opcode map lists (R65). -/
def Laws.EncodedIsWellFormed.Statement (i : Instr) : Prop := wordWellFormed (encode i) = true

theorem Laws.EncodedIsWellFormed.cls :
    Laws.EncodedIsWellFormed.Statement .cls :=
  wordWellFormed_of_row ⟨0xFFFF, 0x00E0⟩ (by decide) (by decide)
theorem Laws.EncodedIsWellFormed.rts :
    Laws.EncodedIsWellFormed.Statement .rts :=
  wordWellFormed_of_row ⟨0xFFFF, 0x00EE⟩ (by decide) (by decide)
theorem Laws.EncodedIsWellFormed.jmp (nnn : Addr) :
    Laws.EncodedIsWellFormed.Statement (.jmp nnn) :=
  wordWellFormed_of_row ⟨0xF000, 0x1000⟩ (by decide) (encodeNNN_family _ _)
theorem Laws.EncodedIsWellFormed.jsr (nnn : Addr) :
    Laws.EncodedIsWellFormed.Statement (.jsr nnn) :=
  wordWellFormed_of_row ⟨0xF000, 0x2000⟩ (by decide) (encodeNNN_family _ _)
theorem Laws.EncodedIsWellFormed.skeqImm (x : Nibble) (kk : Byte) :
    Laws.EncodedIsWellFormed.Statement (.skeqImm x kk) :=
  wordWellFormed_of_row ⟨0xF000, 0x3000⟩ (by decide) (encodeXKK_family _ _ _)
theorem Laws.EncodedIsWellFormed.skneImm (x : Nibble) (kk : Byte) :
    Laws.EncodedIsWellFormed.Statement (.skneImm x kk) :=
  wordWellFormed_of_row ⟨0xF000, 0x4000⟩ (by decide) (encodeXKK_family _ _ _)
theorem Laws.EncodedIsWellFormed.skeqReg (x : Nibble) (y : Nibble) :
    Laws.EncodedIsWellFormed.Statement (.skeqReg x y) :=
  wordWellFormed_of_row ⟨0xF00F, 0x5000⟩ (by decide) (encodeXYN_low _ _ _ _)
theorem Laws.EncodedIsWellFormed.movImm (x : Nibble) (kk : Byte) :
    Laws.EncodedIsWellFormed.Statement (.movImm x kk) :=
  wordWellFormed_of_row ⟨0xF000, 0x6000⟩ (by decide) (encodeXKK_family _ _ _)
theorem Laws.EncodedIsWellFormed.addImm (x : Nibble) (kk : Byte) :
    Laws.EncodedIsWellFormed.Statement (.addImm x kk) :=
  wordWellFormed_of_row ⟨0xF000, 0x7000⟩ (by decide) (encodeXKK_family _ _ _)
theorem Laws.EncodedIsWellFormed.movReg (x : Nibble) (y : Nibble) :
    Laws.EncodedIsWellFormed.Statement (.movReg x y) :=
  wordWellFormed_of_row ⟨0xF00F, 0x8000⟩ (by decide) (encodeXYN_low _ _ _ _)
theorem Laws.EncodedIsWellFormed.orReg (x : Nibble) (y : Nibble) :
    Laws.EncodedIsWellFormed.Statement (.orReg x y) :=
  wordWellFormed_of_row ⟨0xF00F, 0x8001⟩ (by decide) (encodeXYN_low _ _ _ _)
theorem Laws.EncodedIsWellFormed.andReg (x : Nibble) (y : Nibble) :
    Laws.EncodedIsWellFormed.Statement (.andReg x y) :=
  wordWellFormed_of_row ⟨0xF00F, 0x8002⟩ (by decide) (encodeXYN_low _ _ _ _)
theorem Laws.EncodedIsWellFormed.xorReg (x : Nibble) (y : Nibble) :
    Laws.EncodedIsWellFormed.Statement (.xorReg x y) :=
  wordWellFormed_of_row ⟨0xF00F, 0x8003⟩ (by decide) (encodeXYN_low _ _ _ _)
theorem Laws.EncodedIsWellFormed.addReg (x : Nibble) (y : Nibble) :
    Laws.EncodedIsWellFormed.Statement (.addReg x y) :=
  wordWellFormed_of_row ⟨0xF00F, 0x8004⟩ (by decide) (encodeXYN_low _ _ _ _)
theorem Laws.EncodedIsWellFormed.subReg (x : Nibble) (y : Nibble) :
    Laws.EncodedIsWellFormed.Statement (.subReg x y) :=
  wordWellFormed_of_row ⟨0xF00F, 0x8005⟩ (by decide) (encodeXYN_low _ _ _ _)
theorem Laws.EncodedIsWellFormed.shr (x : Nibble) (y : Nibble) :
    Laws.EncodedIsWellFormed.Statement (.shr x y) :=
  wordWellFormed_of_row ⟨0xF00F, 0x8006⟩ (by decide) (encodeXYN_low _ _ _ _)
theorem Laws.EncodedIsWellFormed.rsb (x : Nibble) (y : Nibble) :
    Laws.EncodedIsWellFormed.Statement (.rsb x y) :=
  wordWellFormed_of_row ⟨0xF00F, 0x8007⟩ (by decide) (encodeXYN_low _ _ _ _)
theorem Laws.EncodedIsWellFormed.shl (x : Nibble) (y : Nibble) :
    Laws.EncodedIsWellFormed.Statement (.shl x y) :=
  wordWellFormed_of_row ⟨0xF00F, 0x800E⟩ (by decide) (encodeXYN_low _ _ _ _)
theorem Laws.EncodedIsWellFormed.skneReg (x : Nibble) (y : Nibble) :
    Laws.EncodedIsWellFormed.Statement (.skneReg x y) :=
  wordWellFormed_of_row ⟨0xF00F, 0x9000⟩ (by decide) (encodeXYN_low _ _ _ _)
theorem Laws.EncodedIsWellFormed.mvi (nnn : Addr) :
    Laws.EncodedIsWellFormed.Statement (.mvi nnn) :=
  wordWellFormed_of_row ⟨0xF000, 0xA000⟩ (by decide) (encodeNNN_family _ _)
theorem Laws.EncodedIsWellFormed.jmi (nnn : Addr) :
    Laws.EncodedIsWellFormed.Statement (.jmi nnn) :=
  wordWellFormed_of_row ⟨0xF000, 0xB000⟩ (by decide) (encodeNNN_family _ _)
theorem Laws.EncodedIsWellFormed.rand (x : Nibble) (kk : Byte) :
    Laws.EncodedIsWellFormed.Statement (.rand x kk) :=
  wordWellFormed_of_row ⟨0xF000, 0xC000⟩ (by decide) (encodeXKK_family _ _ _)
theorem Laws.EncodedIsWellFormed.sprite (x : Nibble) (y : Nibble) (n : Nibble) :
    Laws.EncodedIsWellFormed.Statement (.sprite x y n) :=
  wordWellFormed_of_row ⟨0xF000, 0xD000⟩ (by decide) (encodeXYN_family _ _ _ _)
theorem Laws.EncodedIsWellFormed.skpr (x : Nibble) :
    Laws.EncodedIsWellFormed.Statement (.skpr x) :=
  wordWellFormed_of_row ⟨0xF0FF, 0xE09E⟩ (by decide) (encodeXKK_low _ _ _)
theorem Laws.EncodedIsWellFormed.skup (x : Nibble) :
    Laws.EncodedIsWellFormed.Statement (.skup x) :=
  wordWellFormed_of_row ⟨0xF0FF, 0xE0A1⟩ (by decide) (encodeXKK_low _ _ _)
theorem Laws.EncodedIsWellFormed.gdelay (x : Nibble) :
    Laws.EncodedIsWellFormed.Statement (.gdelay x) :=
  wordWellFormed_of_row ⟨0xF0FF, 0xF007⟩ (by decide) (encodeXKK_low _ _ _)
theorem Laws.EncodedIsWellFormed.key (x : Nibble) :
    Laws.EncodedIsWellFormed.Statement (.key x) :=
  wordWellFormed_of_row ⟨0xF0FF, 0xF00A⟩ (by decide) (encodeXKK_low _ _ _)
theorem Laws.EncodedIsWellFormed.sdelay (x : Nibble) :
    Laws.EncodedIsWellFormed.Statement (.sdelay x) :=
  wordWellFormed_of_row ⟨0xF0FF, 0xF015⟩ (by decide) (encodeXKK_low _ _ _)
theorem Laws.EncodedIsWellFormed.ssound (x : Nibble) :
    Laws.EncodedIsWellFormed.Statement (.ssound x) :=
  wordWellFormed_of_row ⟨0xF0FF, 0xF018⟩ (by decide) (encodeXKK_low _ _ _)
theorem Laws.EncodedIsWellFormed.adi (x : Nibble) :
    Laws.EncodedIsWellFormed.Statement (.adi x) :=
  wordWellFormed_of_row ⟨0xF0FF, 0xF01E⟩ (by decide) (encodeXKK_low _ _ _)
theorem Laws.EncodedIsWellFormed.font (x : Nibble) :
    Laws.EncodedIsWellFormed.Statement (.font x) :=
  wordWellFormed_of_row ⟨0xF0FF, 0xF029⟩ (by decide) (encodeXKK_low _ _ _)
theorem Laws.EncodedIsWellFormed.bcd (x : Nibble) :
    Laws.EncodedIsWellFormed.Statement (.bcd x) :=
  wordWellFormed_of_row ⟨0xF0FF, 0xF033⟩ (by decide) (encodeXKK_low _ _ _)
theorem Laws.EncodedIsWellFormed.str (x : Nibble) :
    Laws.EncodedIsWellFormed.Statement (.str x) :=
  wordWellFormed_of_row ⟨0xF0FF, 0xF055⟩ (by decide) (encodeXKK_low _ _ _)
theorem Laws.EncodedIsWellFormed.ldr (x : Nibble) :
    Laws.EncodedIsWellFormed.Statement (.ldr x) :=
  wordWellFormed_of_row ⟨0xF0FF, 0xF065⟩ (by decide) (encodeXKK_low _ _ _)

end Sys2Proof
end

