-- ==== Sys2Proof/Laws/Sprite.lean ====
section
/-! SUPPORT. A sprite draw as one walk over the list of pixels its set bits land on
(spec/45_sprite_D.md R125, R128). -/

namespace Sys2Proof.Machine

/-- Flip one pixel and report whether it was lit. -/
def flipPixel (acc : Memory × Bool) (p : Nat × Nat) : Memory × Bool :=
  (acc.1.pixWrite p.1 p.2 (!acc.1.pixRead p.1 p.2), acc.2 || acc.1.pixRead p.1 p.2)

/-- The pixels the set bits of one row land on. -/
def rowPixels (p : Parameters) (row : Byte) (x0 py : Nat) : List (Nat × Nat) :=
  ((List.range 8).filter fun c => row.getLsbD (7 - c)).map fun c => (wrapX p (x0 + c), py)

/-- The pixels the set bits of the sprite land on. -/
def State.spritePixels (s : State) (x0 y0 n : Nat) : List (Nat × Nat) :=
  (List.range n).flatMap fun r => rowPixels s.params (s.ramByte (s.dataAddr r)) x0 (wrapY s.params (y0 + r))

theorem drawRow_eq (p : Parameters) (row : Byte) (x0 py : Nat) (acc : Memory × Bool) :
    drawRow p row x0 py acc = (rowPixels p row x0 py).foldl flipPixel acc := by
  simp only [drawRow, rowPixels, List.foldl_map, List.foldl_filter]
  rfl

/-- The draw is the walk. -/
theorem State.drawSprite_eq (s : State) (x0 y0 n : Nat) :
    s.drawSprite x0 y0 n = (s.spritePixels x0 y0 n).foldl flipPixel (s.vram, false) := by
  simp only [State.drawSprite, State.spritePixels, List.foldl_flatMap, drawRow_eq]

/-- `WrapX` as the claims write it (R126). -/
theorem wrapX_eq_wrapped (s : State) (u : Nat) : wrapX s.params u = s.wrapped 64 u := by
  rw [wrapX_eq, State.wrapped]; cases s.params.spriteWrapInclusive <;> rfl

/-- `WrapY` as the claims write it (R126). -/
theorem wrapY_eq_wrapped (s : State) (w : Nat) : wrapY s.params w = s.wrapped 32 w := by
  rw [wrapY_eq, State.wrapped]; cases s.params.spriteWrapInclusive <;> rfl

/-- Check (b) of R127 as the claims write it. -/
theorem spriteInGrid_iff_claim (s : State) (x0 y0 n : Nat) :
    spriteInGrid s.params x0 y0 n = true ↔ SpriteInGrid s x0 y0 n := by
  simp only [spriteInGrid_iff, SpriteInGrid, wrapX_eq_wrapped, wrapY_eq_wrapped, Nat.lt_succ_iff]

theorem State.mem_spritePixels (s : State) (x0 y0 n px py : Nat) :
    (px, py) ∈ s.spritePixels x0 y0 n ↔ ∃ r c, r < n ∧ c < 8 ∧
      (s.ramByte (s.dataAddr r)).getLsbD (7 - c) = true ∧ px = wrapX s.params (x0 + c) ∧
      py = wrapY s.params (y0 + r) := by
  simp only [State.spritePixels, rowPixels, List.mem_flatMap, List.mem_range, List.mem_map, List.mem_filter,
    Prod.mk.injEq]
  constructor
  · rintro ⟨r, hr, c, ⟨hc, hb⟩, rfl, rfl⟩; exact ⟨r, c, hr, hc, hb, rfl, rfl⟩
  · rintro ⟨r, c, hr, hc, hb, rfl, rfl⟩; exact ⟨r, hr, c, ⟨hc, hb⟩, rfl, rfl⟩

/-- A sprite that passes check (b) of R127 stays in the grid. -/
theorem State.spritePixels_inGrid {s : State} {x0 y0 n : Nat} (h : spriteInGrid s.params x0 y0 n = true) :
    ∀ p ∈ s.spritePixels x0 y0 n, p.1 < 64 ∧ p.2 < 32 := by
  rintro ⟨px, py⟩ hp
  obtain ⟨r, c, hr, hc, -, rfl, rfl⟩ := (s.mem_spritePixels x0 y0 n px py).1 hp
  exact (spriteInGrid_iff s.params x0 y0 n).1 h r hr c hc

/-- No two positions of one sprite map to the same pixel (R128); its rows are at most 15. -/
theorem State.spritePixels_nodup (s : State) (x0 y0 : Nat) {n : Nat} (hn : n ≤ 32) :
    (s.spritePixels x0 y0 n).Nodup := by
  unfold State.spritePixels
  refine List.nodup_flatMap.2 ⟨fun r hr => ?_, ?_⟩
  · refine List.Nodup.map_on ?_ (List.Nodup.filter _ List.nodup_range)
    intro c hc c' hc' heq
    have h1 := List.mem_range.1 (List.mem_of_mem_filter hc)
    have h2 := List.mem_range.1 (List.mem_of_mem_filter hc')
    have := wrapX_inj (Prod.mk.inj heq).1 (by omega) (by omega)
    omega
  · refine List.Pairwise.imp_of_mem ?_ (List.nodup_range (n := n))
    intro r r' hr hr' hne
    have h1 := List.mem_range.1 hr
    have h2 := List.mem_range.1 hr'
    rintro ⟨px, py⟩ hp hp'
    simp only [rowPixels, List.mem_map, Prod.mk.injEq] at hp hp'
    obtain ⟨_, _, _, e1⟩ := hp
    obtain ⟨_, _, _, e2⟩ := hp'
    have := wrapY_inj (e1.trans e2.symm) (by omega) (by omega)
    omega

/-- What a walk over different pixels of the grid leaves in a byte of a pixel: flipped when the pixel is on the walk. -/
theorem vramByte_flipPixels (ps : List (Nat × Nat)) : ∀ (acc : Memory × Bool), ps.Nodup →
    (∀ p ∈ ps, p.1 < 64) → ∀ px py c, px < 64 → c < 3 →
    (ps.foldl flipPixel acc).1.vramByte (pixOffset px py + c) =
      if (px, py) ∈ ps then pixelByte (!acc.1.pixRead px py) else acc.1.vramByte (pixOffset px py + c) := by
  induction ps with
  | nil => intros; simp
  | cons p ps ih =>
    intro acc hnd hg px py c hx hc
    obtain ⟨hp, hnd⟩ := List.nodup_cons.1 hnd
    have hg' := fun q hq => hg q (List.mem_cons_of_mem _ hq)
    have hpx := hg p List.mem_cons_self
    rw [List.foldl_cons, ih _ hnd hg' px py c hx hc]
    by_cases heq : (px, py) = p
    · subst heq
      rw [if_neg hp, if_pos List.mem_cons_self]
      exact Memory.vramByte_pixWrite_self _ _ _ _ hc
    · have hne : ¬(px = p.1 ∧ py = p.2) := fun ⟨e1, e2⟩ => heq (Prod.ext e1 e2)
      have hr : (flipPixel acc p).1.pixRead px py = acc.1.pixRead px py :=
        Memory.pixRead_pixWrite_of_ne _ _ hpx hx hne
      have hb : (flipPixel acc p).1.vramByte (pixOffset px py + c) = acc.1.vramByte (pixOffset px py + c) := by
        refine Memory.vramByte_pixWrite_of_ne _ _ _ _ ?_
        have := pixOffset_apart hx hpx hne
        omega
      rw [hr, hb]
      by_cases hm : (px, py) ∈ ps
      · rw [if_pos hm, if_pos (List.mem_cons_of_mem _ hm)]
      · rw [if_neg hm, if_neg (fun h => (List.mem_cons.1 h).elim heq hm)]

/-- A walk inside the grid leaves the bytes beyond VRAM alone. -/
theorem vramByte_flipPixels_beyond (ps : List (Nat × Nat)) : ∀ (acc : Memory × Bool),
    (∀ p ∈ ps, p.1 < 64 ∧ p.2 < 32) → ∀ k, k ≥ 6144 → (ps.foldl flipPixel acc).1.vramByte k = acc.1.vramByte k := by
  induction ps with
  | nil => intros; rfl
  | cons p ps ih =>
    intro acc hg k hk
    have hp := hg p List.mem_cons_self
    rw [List.foldl_cons, ih _ (fun q hq => hg q (List.mem_cons_of_mem _ hq)) k hk]
    refine Memory.vramByte_pixWrite_of_ne _ _ _ _ ?_
    simp only [pixOffset_eq]
    omega

/-- A walk over different pixels of the grid reports a collision exactly when one of them was lit before it. -/
theorem collision_flipPixels (ps : List (Nat × Nat)) : ∀ (acc : Memory × Bool), ps.Nodup →
    (∀ p ∈ ps, p.1 < 64) →
    ((ps.foldl flipPixel acc).2 = true ↔ acc.2 = true ∨ ∃ p ∈ ps, acc.1.pixRead p.1 p.2 = true) := by
  induction ps with
  | nil => intros; simp
  | cons p ps ih =>
    intro acc hnd hg
    obtain ⟨hp, hnd⟩ := List.nodup_cons.1 hnd
    have hpx := hg p List.mem_cons_self
    rw [List.foldl_cons, ih _ hnd fun q hq => hg q (List.mem_cons_of_mem _ hq)]
    have hr : ∀ q ∈ ps, (flipPixel acc p).1.pixRead q.1 q.2 = acc.1.pixRead q.1 q.2 := by
      intro q hq
      refine Memory.pixRead_pixWrite_of_ne _ _ hpx (hg q (List.mem_cons_of_mem _ hq)) ?_
      rintro ⟨e1, e2⟩
      exact hp (Prod.ext e1 e2 ▸ hq)
    constructor
    · rintro (h | ⟨q, hq, h⟩)
      · rcases Bool.or_eq_true_iff.1 h with h | h
        · exact .inl h
        · exact .inr ⟨p, List.mem_cons_self, h⟩
      · exact .inr ⟨q, List.mem_cons_of_mem _ hq, hr q hq ▸ h⟩
    · rintro (h | ⟨q, hq, h⟩)
      · exact .inl (Bool.or_eq_true_iff.2 (.inl h))
      · rcases List.mem_cons.1 hq with rfl | hq
        · exact .inl (Bool.or_eq_true_iff.2 (.inr h))
        · exact .inr ⟨q, hq, (hr q hq).symm ▸ h⟩

/-- A walk inside the grid keeps the canonical form of VRAM. -/
theorem wf_flipPixels (ps : List (Nat × Nat)) : ∀ (acc : Memory × Bool), (∀ p ∈ ps, p.1 < 64 ∧ p.2 < 32) →
    Memory.wf Config.vramSize vramUnlisted acc.1 →
    Memory.wf Config.vramSize vramUnlisted (ps.foldl flipPixel acc).1 := by
  induction ps with
  | nil => intro acc _ h; exact h
  | cons p ps ih =>
    intro acc hg h
    have hp := hg p List.mem_cons_self
    exact ih _ (fun q hq => hg q (List.mem_cons_of_mem _ hq)) (Memory.pixWrite_wf _ hp.1 hp.2 h)

/-- A sprite draw touches VRAM and the register file alone. -/
theorem State.withSprite_eq (s : State) (x0 y0 n : Nat) :
    s.withSprite x0 y0 n =
      { s with vram := (s.drawSprite x0 y0 n).1, v := s.v.set 15 (flagByte (s.drawSprite x0 y0 n).2) } := rfl

/-- Everything the checks and the draw of DXYN can do (R127). -/
theorem State.checkedSprite_cases (s : State) (x0 y0 n : Nat) :
    (¬s.spriteRowsInRam n = true ∧ s.checkedSprite x0 y0 n = .error .addrOutOfRange) ∨
    (s.spriteRowsInRam n = true ∧ ¬spriteInGrid s.params x0 y0 n = true ∧
      s.checkedSprite x0 y0 n = .error .vramOutOfRange) ∨
    (s.spriteRowsInRam n = true ∧ spriteInGrid s.params x0 y0 n = true ∧
      s.checkedSprite x0 y0 n = .ok (s.withSprite x0 y0 n).advance) := by
  unfold State.checkedSprite
  cases s.spriteRowsInRam n <;> cases spriteInGrid s.params x0 y0 n <;> simp

end Sys2Proof.Machine
end

