-- ==== Sys2Proof/Laws/State.lean ====
section
/-! SUPPORT. One lemma per field per named update of State, each true by rfl. -/

namespace Sys2Proof.Machine

variable (s : State)

@[simp] theorem State.setReg_v (r : Nibble) (b : Byte) : (s.setReg r b).v = s.v.set r.toNat b r.isLt := rfl
@[simp] theorem State.setReg_i (r : Nibble) (b : Byte) : (s.setReg r b).i = s.i := rfl
@[simp] theorem State.setReg_pc (r : Nibble) (b : Byte) : (s.setReg r b).pc = s.pc := rfl
@[simp] theorem State.setReg_stack (r : Nibble) (b : Byte) : (s.setReg r b).stack = s.stack := rfl
@[simp] theorem State.setReg_sp (r : Nibble) (b : Byte) : (s.setReg r b).sp = s.sp := rfl
@[simp] theorem State.setReg_dt (r : Nibble) (b : Byte) : (s.setReg r b).dt = s.dt := rfl
@[simp] theorem State.setReg_st (r : Nibble) (b : Byte) : (s.setReg r b).st = s.st := rfl
@[simp] theorem State.setReg_opcode (r : Nibble) (b : Byte) : (s.setReg r b).opcode = s.opcode := rfl
@[simp] theorem State.setReg_run (r : Nibble) (b : Byte) : (s.setReg r b).run = s.run := rfl
@[simp] theorem State.setReg_gate (r : Nibble) (b : Byte) : (s.setReg r b).gate = s.gate := rfl
@[simp] theorem State.setReg_haltReason (r : Nibble) (b : Byte) : (s.setReg r b).haltReason = s.haltReason := rfl
@[simp] theorem State.setReg_haltPc (r : Nibble) (b : Byte) : (s.setReg r b).haltPc = s.haltPc := rfl
@[simp] theorem State.setReg_haltOpcode (r : Nibble) (b : Byte) : (s.setReg r b).haltOpcode = s.haltOpcode := rfl
@[simp] theorem State.setReg_ram (r : Nibble) (b : Byte) : (s.setReg r b).ram = s.ram := rfl
@[simp] theorem State.setReg_vram (r : Nibble) (b : Byte) : (s.setReg r b).vram = s.vram := rfl
@[simp] theorem State.setReg_attached (r : Nibble) (b : Byte) : (s.setReg r b).attached = s.attached := rfl
@[simp] theorem State.setReg_present (r : Nibble) (b : Byte) : (s.setReg r b).present = s.present := rfl
@[simp] theorem State.setReg_frame (r : Nibble) (b : Byte) : (s.setReg r b).frame = s.frame := rfl
@[simp] theorem State.setReg_setupError (r : Nibble) (b : Byte) : (s.setReg r b).setupError = s.setupError := rfl
@[simp] theorem State.setReg_rnd (r : Nibble) (b : Byte) : (s.setReg r b).rnd = s.rnd := rfl
@[simp] theorem State.setReg_params (r : Nibble) (b : Byte) : (s.setReg r b).params = s.params := rfl
@[simp] theorem State.setReg_inputs (r : Nibble) (b : Byte) : (s.setReg r b).inputs = s.inputs := rfl
@[simp] theorem State.setReg_inputNo (r : Nibble) (b : Byte) : (s.setReg r b).inputNo = s.inputNo := rfl

@[simp] theorem State.setI_v (w : Word) : (s.setI w).v = s.v := rfl
@[simp] theorem State.setI_i (w : Word) : (s.setI w).i = w := rfl
@[simp] theorem State.setI_pc (w : Word) : (s.setI w).pc = s.pc := rfl
@[simp] theorem State.setI_stack (w : Word) : (s.setI w).stack = s.stack := rfl
@[simp] theorem State.setI_sp (w : Word) : (s.setI w).sp = s.sp := rfl
@[simp] theorem State.setI_dt (w : Word) : (s.setI w).dt = s.dt := rfl
@[simp] theorem State.setI_st (w : Word) : (s.setI w).st = s.st := rfl
@[simp] theorem State.setI_opcode (w : Word) : (s.setI w).opcode = s.opcode := rfl
@[simp] theorem State.setI_run (w : Word) : (s.setI w).run = s.run := rfl
@[simp] theorem State.setI_gate (w : Word) : (s.setI w).gate = s.gate := rfl
@[simp] theorem State.setI_haltReason (w : Word) : (s.setI w).haltReason = s.haltReason := rfl
@[simp] theorem State.setI_haltPc (w : Word) : (s.setI w).haltPc = s.haltPc := rfl
@[simp] theorem State.setI_haltOpcode (w : Word) : (s.setI w).haltOpcode = s.haltOpcode := rfl
@[simp] theorem State.setI_ram (w : Word) : (s.setI w).ram = s.ram := rfl
@[simp] theorem State.setI_vram (w : Word) : (s.setI w).vram = s.vram := rfl
@[simp] theorem State.setI_attached (w : Word) : (s.setI w).attached = s.attached := rfl
@[simp] theorem State.setI_present (w : Word) : (s.setI w).present = s.present := rfl
@[simp] theorem State.setI_frame (w : Word) : (s.setI w).frame = s.frame := rfl
@[simp] theorem State.setI_setupError (w : Word) : (s.setI w).setupError = s.setupError := rfl
@[simp] theorem State.setI_rnd (w : Word) : (s.setI w).rnd = s.rnd := rfl
@[simp] theorem State.setI_params (w : Word) : (s.setI w).params = s.params := rfl
@[simp] theorem State.setI_inputs (w : Word) : (s.setI w).inputs = s.inputs := rfl
@[simp] theorem State.setI_inputNo (w : Word) : (s.setI w).inputNo = s.inputNo := rfl

@[simp] theorem State.setPc_v (w : Word) : (s.setPc w).v = s.v := rfl
@[simp] theorem State.setPc_i (w : Word) : (s.setPc w).i = s.i := rfl
@[simp] theorem State.setPc_pc (w : Word) : (s.setPc w).pc = w := rfl
@[simp] theorem State.setPc_stack (w : Word) : (s.setPc w).stack = s.stack := rfl
@[simp] theorem State.setPc_sp (w : Word) : (s.setPc w).sp = s.sp := rfl
@[simp] theorem State.setPc_dt (w : Word) : (s.setPc w).dt = s.dt := rfl
@[simp] theorem State.setPc_st (w : Word) : (s.setPc w).st = s.st := rfl
@[simp] theorem State.setPc_opcode (w : Word) : (s.setPc w).opcode = s.opcode := rfl
@[simp] theorem State.setPc_run (w : Word) : (s.setPc w).run = s.run := rfl
@[simp] theorem State.setPc_gate (w : Word) : (s.setPc w).gate = s.gate := rfl
@[simp] theorem State.setPc_haltReason (w : Word) : (s.setPc w).haltReason = s.haltReason := rfl
@[simp] theorem State.setPc_haltPc (w : Word) : (s.setPc w).haltPc = s.haltPc := rfl
@[simp] theorem State.setPc_haltOpcode (w : Word) : (s.setPc w).haltOpcode = s.haltOpcode := rfl
@[simp] theorem State.setPc_ram (w : Word) : (s.setPc w).ram = s.ram := rfl
@[simp] theorem State.setPc_vram (w : Word) : (s.setPc w).vram = s.vram := rfl
@[simp] theorem State.setPc_attached (w : Word) : (s.setPc w).attached = s.attached := rfl
@[simp] theorem State.setPc_present (w : Word) : (s.setPc w).present = s.present := rfl
@[simp] theorem State.setPc_frame (w : Word) : (s.setPc w).frame = s.frame := rfl
@[simp] theorem State.setPc_setupError (w : Word) : (s.setPc w).setupError = s.setupError := rfl
@[simp] theorem State.setPc_rnd (w : Word) : (s.setPc w).rnd = s.rnd := rfl
@[simp] theorem State.setPc_params (w : Word) : (s.setPc w).params = s.params := rfl
@[simp] theorem State.setPc_inputs (w : Word) : (s.setPc w).inputs = s.inputs := rfl
@[simp] theorem State.setPc_inputNo (w : Word) : (s.setPc w).inputNo = s.inputNo := rfl

@[simp] theorem State.advance_v : (s.advance).v = s.v := rfl
@[simp] theorem State.advance_i : (s.advance).i = s.i := rfl
@[simp] theorem State.advance_pc : (s.advance).pc = s.pc + 2#16 := rfl
@[simp] theorem State.advance_stack : (s.advance).stack = s.stack := rfl
@[simp] theorem State.advance_sp : (s.advance).sp = s.sp := rfl
@[simp] theorem State.advance_dt : (s.advance).dt = s.dt := rfl
@[simp] theorem State.advance_st : (s.advance).st = s.st := rfl
@[simp] theorem State.advance_opcode : (s.advance).opcode = s.opcode := rfl
@[simp] theorem State.advance_run : (s.advance).run = s.run := rfl
@[simp] theorem State.advance_gate : (s.advance).gate = s.gate := rfl
@[simp] theorem State.advance_haltReason : (s.advance).haltReason = s.haltReason := rfl
@[simp] theorem State.advance_haltPc : (s.advance).haltPc = s.haltPc := rfl
@[simp] theorem State.advance_haltOpcode : (s.advance).haltOpcode = s.haltOpcode := rfl
@[simp] theorem State.advance_ram : (s.advance).ram = s.ram := rfl
@[simp] theorem State.advance_vram : (s.advance).vram = s.vram := rfl
@[simp] theorem State.advance_attached : (s.advance).attached = s.attached := rfl
@[simp] theorem State.advance_present : (s.advance).present = s.present := rfl
@[simp] theorem State.advance_frame : (s.advance).frame = s.frame := rfl
@[simp] theorem State.advance_setupError : (s.advance).setupError = s.setupError := rfl
@[simp] theorem State.advance_rnd : (s.advance).rnd = s.rnd := rfl
@[simp] theorem State.advance_params : (s.advance).params = s.params := rfl
@[simp] theorem State.advance_inputs : (s.advance).inputs = s.inputs := rfl
@[simp] theorem State.advance_inputNo : (s.advance).inputNo = s.inputNo := rfl

@[simp] theorem State.skip_v : (s.skip).v = s.v := rfl
@[simp] theorem State.skip_i : (s.skip).i = s.i := rfl
@[simp] theorem State.skip_pc : (s.skip).pc = s.pc + 4#16 := rfl
@[simp] theorem State.skip_stack : (s.skip).stack = s.stack := rfl
@[simp] theorem State.skip_sp : (s.skip).sp = s.sp := rfl
@[simp] theorem State.skip_dt : (s.skip).dt = s.dt := rfl
@[simp] theorem State.skip_st : (s.skip).st = s.st := rfl
@[simp] theorem State.skip_opcode : (s.skip).opcode = s.opcode := rfl
@[simp] theorem State.skip_run : (s.skip).run = s.run := rfl
@[simp] theorem State.skip_gate : (s.skip).gate = s.gate := rfl
@[simp] theorem State.skip_haltReason : (s.skip).haltReason = s.haltReason := rfl
@[simp] theorem State.skip_haltPc : (s.skip).haltPc = s.haltPc := rfl
@[simp] theorem State.skip_haltOpcode : (s.skip).haltOpcode = s.haltOpcode := rfl
@[simp] theorem State.skip_ram : (s.skip).ram = s.ram := rfl
@[simp] theorem State.skip_vram : (s.skip).vram = s.vram := rfl
@[simp] theorem State.skip_attached : (s.skip).attached = s.attached := rfl
@[simp] theorem State.skip_present : (s.skip).present = s.present := rfl
@[simp] theorem State.skip_frame : (s.skip).frame = s.frame := rfl
@[simp] theorem State.skip_setupError : (s.skip).setupError = s.setupError := rfl
@[simp] theorem State.skip_rnd : (s.skip).rnd = s.rnd := rfl
@[simp] theorem State.skip_params : (s.skip).params = s.params := rfl
@[simp] theorem State.skip_inputs : (s.skip).inputs = s.inputs := rfl
@[simp] theorem State.skip_inputNo : (s.skip).inputNo = s.inputNo := rfl

@[simp] theorem State.setDt_v (b : Byte) : (s.setDt b).v = s.v := rfl
@[simp] theorem State.setDt_i (b : Byte) : (s.setDt b).i = s.i := rfl
@[simp] theorem State.setDt_pc (b : Byte) : (s.setDt b).pc = s.pc := rfl
@[simp] theorem State.setDt_stack (b : Byte) : (s.setDt b).stack = s.stack := rfl
@[simp] theorem State.setDt_sp (b : Byte) : (s.setDt b).sp = s.sp := rfl
@[simp] theorem State.setDt_dt (b : Byte) : (s.setDt b).dt = b := rfl
@[simp] theorem State.setDt_st (b : Byte) : (s.setDt b).st = s.st := rfl
@[simp] theorem State.setDt_opcode (b : Byte) : (s.setDt b).opcode = s.opcode := rfl
@[simp] theorem State.setDt_run (b : Byte) : (s.setDt b).run = s.run := rfl
@[simp] theorem State.setDt_gate (b : Byte) : (s.setDt b).gate = s.gate := rfl
@[simp] theorem State.setDt_haltReason (b : Byte) : (s.setDt b).haltReason = s.haltReason := rfl
@[simp] theorem State.setDt_haltPc (b : Byte) : (s.setDt b).haltPc = s.haltPc := rfl
@[simp] theorem State.setDt_haltOpcode (b : Byte) : (s.setDt b).haltOpcode = s.haltOpcode := rfl
@[simp] theorem State.setDt_ram (b : Byte) : (s.setDt b).ram = s.ram := rfl
@[simp] theorem State.setDt_vram (b : Byte) : (s.setDt b).vram = s.vram := rfl
@[simp] theorem State.setDt_attached (b : Byte) : (s.setDt b).attached = s.attached := rfl
@[simp] theorem State.setDt_present (b : Byte) : (s.setDt b).present = s.present := rfl
@[simp] theorem State.setDt_frame (b : Byte) : (s.setDt b).frame = s.frame := rfl
@[simp] theorem State.setDt_setupError (b : Byte) : (s.setDt b).setupError = s.setupError := rfl
@[simp] theorem State.setDt_rnd (b : Byte) : (s.setDt b).rnd = s.rnd := rfl
@[simp] theorem State.setDt_params (b : Byte) : (s.setDt b).params = s.params := rfl
@[simp] theorem State.setDt_inputs (b : Byte) : (s.setDt b).inputs = s.inputs := rfl
@[simp] theorem State.setDt_inputNo (b : Byte) : (s.setDt b).inputNo = s.inputNo := rfl

@[simp] theorem State.setSt_v (b : Byte) : (s.setSt b).v = s.v := rfl
@[simp] theorem State.setSt_i (b : Byte) : (s.setSt b).i = s.i := rfl
@[simp] theorem State.setSt_pc (b : Byte) : (s.setSt b).pc = s.pc := rfl
@[simp] theorem State.setSt_stack (b : Byte) : (s.setSt b).stack = s.stack := rfl
@[simp] theorem State.setSt_sp (b : Byte) : (s.setSt b).sp = s.sp := rfl
@[simp] theorem State.setSt_dt (b : Byte) : (s.setSt b).dt = s.dt := rfl
@[simp] theorem State.setSt_st (b : Byte) : (s.setSt b).st = b := rfl
@[simp] theorem State.setSt_opcode (b : Byte) : (s.setSt b).opcode = s.opcode := rfl
@[simp] theorem State.setSt_run (b : Byte) : (s.setSt b).run = s.run := rfl
@[simp] theorem State.setSt_gate (b : Byte) : (s.setSt b).gate = s.gate := rfl
@[simp] theorem State.setSt_haltReason (b : Byte) : (s.setSt b).haltReason = s.haltReason := rfl
@[simp] theorem State.setSt_haltPc (b : Byte) : (s.setSt b).haltPc = s.haltPc := rfl
@[simp] theorem State.setSt_haltOpcode (b : Byte) : (s.setSt b).haltOpcode = s.haltOpcode := rfl
@[simp] theorem State.setSt_ram (b : Byte) : (s.setSt b).ram = s.ram := rfl
@[simp] theorem State.setSt_vram (b : Byte) : (s.setSt b).vram = s.vram := rfl
@[simp] theorem State.setSt_attached (b : Byte) : (s.setSt b).attached = s.attached := rfl
@[simp] theorem State.setSt_present (b : Byte) : (s.setSt b).present = s.present := rfl
@[simp] theorem State.setSt_frame (b : Byte) : (s.setSt b).frame = s.frame := rfl
@[simp] theorem State.setSt_setupError (b : Byte) : (s.setSt b).setupError = s.setupError := rfl
@[simp] theorem State.setSt_rnd (b : Byte) : (s.setSt b).rnd = s.rnd := rfl
@[simp] theorem State.setSt_params (b : Byte) : (s.setSt b).params = s.params := rfl
@[simp] theorem State.setSt_inputs (b : Byte) : (s.setSt b).inputs = s.inputs := rfl
@[simp] theorem State.setSt_inputNo (b : Byte) : (s.setSt b).inputNo = s.inputNo := rfl

@[simp] theorem State.clearVram_v : (s.clearVram).v = s.v := rfl
@[simp] theorem State.clearVram_i : (s.clearVram).i = s.i := rfl
@[simp] theorem State.clearVram_pc : (s.clearVram).pc = s.pc := rfl
@[simp] theorem State.clearVram_stack : (s.clearVram).stack = s.stack := rfl
@[simp] theorem State.clearVram_sp : (s.clearVram).sp = s.sp := rfl
@[simp] theorem State.clearVram_dt : (s.clearVram).dt = s.dt := rfl
@[simp] theorem State.clearVram_st : (s.clearVram).st = s.st := rfl
@[simp] theorem State.clearVram_opcode : (s.clearVram).opcode = s.opcode := rfl
@[simp] theorem State.clearVram_run : (s.clearVram).run = s.run := rfl
@[simp] theorem State.clearVram_gate : (s.clearVram).gate = s.gate := rfl
@[simp] theorem State.clearVram_haltReason : (s.clearVram).haltReason = s.haltReason := rfl
@[simp] theorem State.clearVram_haltPc : (s.clearVram).haltPc = s.haltPc := rfl
@[simp] theorem State.clearVram_haltOpcode : (s.clearVram).haltOpcode = s.haltOpcode := rfl
@[simp] theorem State.clearVram_ram : (s.clearVram).ram = s.ram := rfl
@[simp] theorem State.clearVram_vram : (s.clearVram).vram = [] := rfl
@[simp] theorem State.clearVram_attached : (s.clearVram).attached = s.attached := rfl
@[simp] theorem State.clearVram_present : (s.clearVram).present = s.present := rfl
@[simp] theorem State.clearVram_frame : (s.clearVram).frame = s.frame := rfl
@[simp] theorem State.clearVram_setupError : (s.clearVram).setupError = s.setupError := rfl
@[simp] theorem State.clearVram_rnd : (s.clearVram).rnd = s.rnd := rfl
@[simp] theorem State.clearVram_params : (s.clearVram).params = s.params := rfl
@[simp] theorem State.clearVram_inputs : (s.clearVram).inputs = s.inputs := rfl
@[simp] theorem State.clearVram_inputNo : (s.clearVram).inputNo = s.inputNo := rfl

@[simp] theorem State.halt_v (c : HaltCause) : (s.halt c).v = s.v := rfl
@[simp] theorem State.halt_i (c : HaltCause) : (s.halt c).i = s.i := rfl
@[simp] theorem State.halt_pc (c : HaltCause) : (s.halt c).pc = s.pc := rfl
@[simp] theorem State.halt_stack (c : HaltCause) : (s.halt c).stack = s.stack := rfl
@[simp] theorem State.halt_sp (c : HaltCause) : (s.halt c).sp = s.sp := rfl
@[simp] theorem State.halt_dt (c : HaltCause) : (s.halt c).dt = s.dt := rfl
@[simp] theorem State.halt_st (c : HaltCause) : (s.halt c).st = s.st := rfl
@[simp] theorem State.halt_opcode (c : HaltCause) : (s.halt c).opcode = s.opcode := rfl
@[simp] theorem State.halt_run (c : HaltCause) : (s.halt c).run = false := rfl
@[simp] theorem State.halt_gate (c : HaltCause) : (s.halt c).gate = s.gate := rfl
@[simp] theorem State.halt_haltReason (c : HaltCause) : (s.halt c).haltReason = c.code := rfl
@[simp] theorem State.halt_haltPc (c : HaltCause) : (s.halt c).haltPc = s.pc := rfl
@[simp] theorem State.halt_haltOpcode (c : HaltCause) : (s.halt c).haltOpcode = s.opcode := rfl
@[simp] theorem State.halt_ram (c : HaltCause) : (s.halt c).ram = s.ram := rfl
@[simp] theorem State.halt_vram (c : HaltCause) : (s.halt c).vram = s.vram := rfl
@[simp] theorem State.halt_attached (c : HaltCause) : (s.halt c).attached = s.attached := rfl
@[simp] theorem State.halt_present (c : HaltCause) : (s.halt c).present = s.present := rfl
@[simp] theorem State.halt_frame (c : HaltCause) : (s.halt c).frame = s.frame := rfl
@[simp] theorem State.halt_setupError (c : HaltCause) : (s.halt c).setupError = s.setupError := rfl
@[simp] theorem State.halt_rnd (c : HaltCause) : (s.halt c).rnd = s.rnd := rfl
@[simp] theorem State.halt_params (c : HaltCause) : (s.halt c).params = s.params := rfl
@[simp] theorem State.halt_inputs (c : HaltCause) : (s.halt c).inputs = s.inputs := rfl
@[simp] theorem State.halt_inputNo (c : HaltCause) : (s.halt c).inputNo = s.inputNo := rfl

@[simp] theorem State.timerTick_v : (s.timerTick).v = s.v := rfl
@[simp] theorem State.timerTick_i : (s.timerTick).i = s.i := rfl
@[simp] theorem State.timerTick_pc : (s.timerTick).pc = s.pc := rfl
@[simp] theorem State.timerTick_stack : (s.timerTick).stack = s.stack := rfl
@[simp] theorem State.timerTick_sp : (s.timerTick).sp = s.sp := rfl
@[simp] theorem State.timerTick_dt : (s.timerTick).dt = countDown s.dt := rfl
@[simp] theorem State.timerTick_st : (s.timerTick).st = countDown s.st := rfl
@[simp] theorem State.timerTick_opcode : (s.timerTick).opcode = s.opcode := rfl
@[simp] theorem State.timerTick_run : (s.timerTick).run = s.run := rfl
@[simp] theorem State.timerTick_gate : (s.timerTick).gate = s.gate := rfl
@[simp] theorem State.timerTick_haltReason : (s.timerTick).haltReason = s.haltReason := rfl
@[simp] theorem State.timerTick_haltPc : (s.timerTick).haltPc = s.haltPc := rfl
@[simp] theorem State.timerTick_haltOpcode : (s.timerTick).haltOpcode = s.haltOpcode := rfl
@[simp] theorem State.timerTick_ram : (s.timerTick).ram = s.ram := rfl
@[simp] theorem State.timerTick_vram : (s.timerTick).vram = s.vram := rfl
@[simp] theorem State.timerTick_attached : (s.timerTick).attached = s.attached := rfl
@[simp] theorem State.timerTick_present : (s.timerTick).present = true := rfl
@[simp] theorem State.timerTick_frame : (s.timerTick).frame = some s.vram := rfl
@[simp] theorem State.timerTick_setupError : (s.timerTick).setupError = s.setupError := rfl
@[simp] theorem State.timerTick_rnd : (s.timerTick).rnd = s.rnd := rfl
@[simp] theorem State.timerTick_params : (s.timerTick).params = s.params := rfl
@[simp] theorem State.timerTick_inputs : (s.timerTick).inputs = s.inputs := rfl
@[simp] theorem State.timerTick_inputNo : (s.timerTick).inputNo = s.inputNo := rfl

@[simp] theorem State.stopRequest_v : (s.stopRequest).v = s.v := rfl
@[simp] theorem State.stopRequest_i : (s.stopRequest).i = s.i := rfl
@[simp] theorem State.stopRequest_pc : (s.stopRequest).pc = s.pc := rfl
@[simp] theorem State.stopRequest_stack : (s.stopRequest).stack = s.stack := rfl
@[simp] theorem State.stopRequest_sp : (s.stopRequest).sp = s.sp := rfl
@[simp] theorem State.stopRequest_dt : (s.stopRequest).dt = s.dt := rfl
@[simp] theorem State.stopRequest_st : (s.stopRequest).st = s.st := rfl
@[simp] theorem State.stopRequest_opcode : (s.stopRequest).opcode = s.opcode := rfl
@[simp] theorem State.stopRequest_run : (s.stopRequest).run = false := rfl
@[simp] theorem State.stopRequest_gate : (s.stopRequest).gate = s.gate := rfl
@[simp] theorem State.stopRequest_haltReason : (s.stopRequest).haltReason = s.haltReason := rfl
@[simp] theorem State.stopRequest_haltPc : (s.stopRequest).haltPc = s.haltPc := rfl
@[simp] theorem State.stopRequest_haltOpcode : (s.stopRequest).haltOpcode = s.haltOpcode := rfl
@[simp] theorem State.stopRequest_ram : (s.stopRequest).ram = s.ram := rfl
@[simp] theorem State.stopRequest_vram : (s.stopRequest).vram = s.vram := rfl
@[simp] theorem State.stopRequest_attached : (s.stopRequest).attached = s.attached := rfl
@[simp] theorem State.stopRequest_present : (s.stopRequest).present = s.present := rfl
@[simp] theorem State.stopRequest_frame : (s.stopRequest).frame = s.frame := rfl
@[simp] theorem State.stopRequest_setupError : (s.stopRequest).setupError = s.setupError := rfl
@[simp] theorem State.stopRequest_rnd : (s.stopRequest).rnd = s.rnd := rfl
@[simp] theorem State.stopRequest_params : (s.stopRequest).params = s.params := rfl
@[simp] theorem State.stopRequest_inputs : (s.stopRequest).inputs = s.inputs := rfl
@[simp] theorem State.stopRequest_inputNo : (s.stopRequest).inputNo = s.inputNo := rfl

@[simp] theorem State.powerOn_v : (s.powerOn).v = s.v := rfl
@[simp] theorem State.powerOn_i : (s.powerOn).i = s.i := rfl
@[simp] theorem State.powerOn_pc : (s.powerOn).pc = s.pc := rfl
@[simp] theorem State.powerOn_stack : (s.powerOn).stack = s.stack := rfl
@[simp] theorem State.powerOn_sp : (s.powerOn).sp = s.sp := rfl
@[simp] theorem State.powerOn_dt : (s.powerOn).dt = s.dt := rfl
@[simp] theorem State.powerOn_st : (s.powerOn).st = s.st := rfl
@[simp] theorem State.powerOn_opcode : (s.powerOn).opcode = s.opcode := rfl
@[simp] theorem State.powerOn_run : (s.powerOn).run = false := rfl
@[simp] theorem State.powerOn_gate : (s.powerOn).gate = s.gate := rfl
@[simp] theorem State.powerOn_haltReason : (s.powerOn).haltReason = 0#3 := rfl
@[simp] theorem State.powerOn_haltPc : (s.powerOn).haltPc = s.haltPc := rfl
@[simp] theorem State.powerOn_haltOpcode : (s.powerOn).haltOpcode = s.haltOpcode := rfl
@[simp] theorem State.powerOn_ram : (s.powerOn).ram = s.ram := rfl
@[simp] theorem State.powerOn_vram : (s.powerOn).vram = s.vram := rfl
@[simp] theorem State.powerOn_attached : (s.powerOn).attached = ⟨false, false, false⟩ := rfl
@[simp] theorem State.powerOn_present : (s.powerOn).present = false := rfl
@[simp] theorem State.powerOn_frame : (s.powerOn).frame = none := rfl
@[simp] theorem State.powerOn_setupError : (s.powerOn).setupError = false := rfl
@[simp] theorem State.powerOn_rnd : (s.powerOn).rnd = s.rnd := rfl
@[simp] theorem State.powerOn_params : (s.powerOn).params = s.params := rfl
@[simp] theorem State.powerOn_inputs : (s.powerOn).inputs = s.inputs := rfl
@[simp] theorem State.powerOn_inputNo : (s.powerOn).inputNo = s.inputNo := rfl

end Sys2Proof.Machine
end

