-- ==== Sys2Proof/Tests/Slice0.lean ====
section
/-! SUPPORT. The model's own tests. Expected results are the vectors of spec/95_test_vectors.md (their numbers stand in
the comments) and words written out from the encodings of spec/30_encoding.md; then, for every statement with
hypotheses, states and operands that meet them. -/

namespace Sys2Proof.Tests

open Sys2Proof Sys2Proof.Machine

/-! ## Helpers -/

/-- The next state of an outcome. -/
def nextOf : Result → Option State
  | .next t => some t
  | _ => none

/-- The state after reset with some registers set. -/
def withRegs (l : List (Nibble × Byte)) : State := l.foldl (fun s p => s.setReg p.1 p.2) State.reset

/-- What an instruction leaves, seen through a view. -/
def after {α : Type} (i : Instr) (s : State) (view : State → α) : Option α := (nextOf (exec i s)).map view

/-- V[X], VF and PC. -/
def seeReg (x : Nibble) (t : State) : Byte × Byte × Word := (t.reg x, t.reg vf, t.pc)

/-- RUN, HALT_REASON, HALT_PC, HALT_OPCODE. -/
def seeHalt (t : State) : Bool × BitVec 3 × Word × Word := (t.run, t.haltReason, t.haltPc, t.haltOpcode)

/-! ## Well-formedness -/

/-- One word of each of the five sets of R66, and the boundary of each check, are refused. -/
theorem test_illFormed_words : [0x0000#16, 0x00E1#16, 0x01E0#16, 0x0FEE#16, 0x5121#16, 0x912F#16, 0x8018#16, 0x801F#16,
    0xE000#16, 0xE09F#16, 0xE1A0#16, 0xF0FF#16, 0xF005#16, 0xF075#16, 0xF000#16].all
      (fun op => !wordWellFormed op) = true := by decide

theorem test_illFormed_words_rejected : decodeWord 0x0FEE#16 = .error .unknownSystem ∧
    decodeWord 0x5121#16 = .error .unknownSkip ∧ decodeWord 0x912F#16 = .error .unknownSkip ∧
    decodeWord 0x801D#16 = .error .unknownAlu ∧ decodeWord 0xE09F#16 = .error .unknownKey ∧
    decodeWord 0xF075#16 = .error .unknownMisc ∧ decode [0x60#8] = .error .tooShort := by decide

/-- A launch with one font byte missing, and one with a program byte too many, are refused (R167). -/
theorem test_illFormed_launches : launchWellFormed (List.replicate 79 0x00#8) [] = false ∧
    launchWellFormed (List.replicate 80 0x00#8) (List.replicate 3585 0x00#8) = false ∧
    launchWellFormed (List.replicate 80 0x00#8) (List.replicate 3584 0x00#8) = true := by
  simp only [launchWellFormed, List.length_replicate]; decide

/-- Cells out of order, an address outside the space, and a listed zero in VRAM are refused. -/
theorem test_illFormed_memories : ¬Memory.wf Config.ramSize ramUnlisted [(2, 0x01#8), (1, 0x01#8)] ∧
    ¬Memory.wf Config.ramSize ramUnlisted [(4096, 0x01#8)] ∧
    ¬Memory.wf Config.vramSize vramUnlisted [(3, 0x00#8)] ∧
    Memory.wf Config.ramSize ramUnlisted [(1, 0x00#8), (4095, 0x01#8)] := by decide

theorem test_memory_write_canonical : Memory.write vramUnlisted [(3, 0xFF#8)] 3 0x00#8 = [] ∧
    Memory.write vramUnlisted [(3, 0xFF#8)] 1 0xFF#8 = [(1, 0xFF#8), (3, 0xFF#8)] := by decide

/-! ## Decoding, words written out from R65 field by field -/

theorem test_decode_flow : decodeWord 0b0000000011100000#16 = .ok .cls ∧
    decodeWord 0b0000000011101110#16 = .ok .rts ∧ decodeWord 0b0001101010111100#16 = .ok (.jmp 0xABC#12) ∧
    decodeWord 0b0010001100000000#16 = .ok (.jsr 0x300#12) := by decide

theorem test_decode_skips : decodeWord 0b0011001101000010#16 = .ok (.skeqImm 0x3#4 0x42#8) ∧
    decodeWord 0b0100001101000011#16 = .ok (.skneImm 0x3#4 0x43#8) ∧
    decodeWord 0b0101000100100000#16 = .ok (.skeqReg 0x1#4 0x2#4) ∧
    decodeWord 0b1001000100100000#16 = .ok (.skneReg 0x1#4 0x2#4) := by decide

theorem test_decode_immediate : decodeWord 0b0110000000000101#16 = .ok (.movImm 0x0#4 0x05#8) ∧
    decodeWord 0b0111111100000001#16 = .ok (.addImm 0xF#4 0x01#8) := by decide

theorem test_decode_alu : decodeWord 0b1000000000010000#16 = .ok (.movReg 0x0#4 0x1#4) ∧
    decodeWord 0b1000001010010001#16 = .ok (.orReg 0x2#4 0x9#4) ∧
    decodeWord 0b1000001010010010#16 = .ok (.andReg 0x2#4 0x9#4) ∧
    decodeWord 0b1000001010010011#16 = .ok (.xorReg 0x2#4 0x9#4) ∧
    decodeWord 0b1000111100010100#16 = .ok (.addReg 0xF#4 0x1#4) ∧
    decodeWord 0b1000000011110101#16 = .ok (.subReg 0x0#4 0xF#4) ∧
    decodeWord 0b1000000000010110#16 = .ok (.shr 0x0#4 0x1#4) ∧
    decodeWord 0b1000000000010111#16 = .ok (.rsb 0x0#4 0x1#4) ∧
    decodeWord 0b1000000000011110#16 = .ok (.shl 0x0#4 0x1#4) := by decide

theorem test_decode_index : decodeWord 0b1010000100100011#16 = .ok (.mvi 0x123#12) ∧
    decodeWord 0b1011001100000000#16 = .ok (.jmi 0x300#12) ∧
    decodeWord 0b1100000000001111#16 = .ok (.rand 0x0#4 0x0F#8) := by decide

theorem test_decode_sprite : decodeWord 0b1101000000010010#16 = .ok (.sprite 0x0#4 0x1#4 0x2#4) := by decide

theorem test_decode_keys : decodeWord 0b1110001110011110#16 = .ok (.skpr 0x3#4) ∧
    decodeWord 0b1110001110100001#16 = .ok (.skup 0x3#4) := by decide

theorem test_decode_misc : decodeWord 0b1111000100000111#16 = .ok (.gdelay 0x1#4) ∧
    decodeWord 0b1111000100001010#16 = .ok (.key 0x1#4) ∧ decodeWord 0b1111000100010101#16 = .ok (.sdelay 0x1#4) ∧
    decodeWord 0b1111000100011000#16 = .ok (.ssound 0x1#4) ∧ decodeWord 0b1111001000011110#16 = .ok (.adi 0x2#4) ∧
    decodeWord 0b1111000000101001#16 = .ok (.font 0x0#4) ∧ decodeWord 0b1111000000110011#16 = .ok (.bcd 0x0#4) ∧
    decodeWord 0b1111001001010101#16 = .ok (.str 0x2#4) ∧ decodeWord 0b1111000101100101#16 = .ok (.ldr 0x1#4) := by
  decide

/-- The high byte comes first (R44, R60), and the opcode-table entry point lays the word out so. -/
theorem test_decode_bytes : decode [0x60#8, 0x05#8, 0x70#8] = .ok (.movImm 0x0#4 0x05#8, [0x70#8]) ∧
    decode [0x05#8, 0x60#8] = .error .unknownSystem ∧
    decodeTableWord 16 0x6005 = some (.movImm 0x0#4 0x05#8) ∧ decodeTableWord 16 0x0560 = none := by decide

/-! ## One step of each instruction -/

/-- T0.1 -/
theorem test_cls : after .cls { State.reset with vram := [(0, 0xFF#8), (6143, 0xFF#8)] } (fun t => (t.vram, t.pc)) =
    some ([], 0x0202#16) := by decide

/-- T0.2 -/
theorem test_rts : after .rts { State.reset with sp := 1#4, stack := State.reset.stack.set 0 0x0204#16, pc := 0x020A#16 }
    (fun t => (t.pc, t.sp, t.stack[0])) = some (0x0204#16, 0#4, 0x0204#16) := by decide

/-- T0.3 -/
theorem test_rts_empty : after .rts { State.reset with opcode := 0x00EE#16 } seeHalt =
    some (false, 3#3, 0x0200#16, 0x00EE#16) := by decide

/-- T1.1 -/
theorem test_jmp : after (.jmp 0xABC#12) State.reset State.pc = some 0x0ABC#16 := by decide

/-- T2.2 -/
theorem test_jsr_fifteenth : after (.jsr 0x300#12) { State.reset with sp := 14#4, pc := 0x0FFE#16 }
    (fun t => (t.stack[14], t.sp, t.pc)) = some (0x1000#16, 15#4, 0x0300#16) := by decide

/-- T2.3 -/
theorem test_jsr_sixteenth : after (.jsr 0x300#12) { State.reset with sp := 15#4, opcode := 0x2300#16 }
    (fun t => (seeHalt t, t.sp)) = some ((false, 2#3, 0x0200#16, 0x2300#16), 15#4) := by decide

/-- T3.1, T3.2 -/
theorem test_skeqImm : after (.skeqImm 0x3#4 0x42#8) (withRegs [(0x3#4, 0x42#8)]) State.pc = some 0x0204#16 ∧
    after (.skeqImm 0x3#4 0x43#8) (withRegs [(0x3#4, 0x42#8)]) State.pc = some 0x0202#16 := by decide

/-- T4.1, T4.2 -/
theorem test_skneImm : after (.skneImm 0x3#4 0x42#8) (withRegs [(0x3#4, 0x42#8)]) State.pc = some 0x0202#16 ∧
    after (.skneImm 0x3#4 0x43#8) (withRegs [(0x3#4, 0x42#8)]) State.pc = some 0x0204#16 := by decide

/-- T5.1, T5.2 -/
theorem test_skeqReg : after (.skeqReg 0x1#4 0x2#4) (withRegs [(0x1#4, 7#8), (0x2#4, 7#8)]) State.pc = some 0x0204#16 ∧
    after (.skeqReg 0x1#4 0x2#4) (withRegs [(0x1#4, 7#8), (0x2#4, 8#8)]) State.pc = some 0x0202#16 := by decide

/-- T9.1, T9.2 -/
theorem test_skneReg : after (.skneReg 0x1#4 0x2#4) (withRegs [(0x1#4, 7#8), (0x2#4, 7#8)]) State.pc = some 0x0202#16 ∧
    after (.skneReg 0x1#4 0x2#4) (withRegs [(0x1#4, 7#8), (0x2#4, 8#8)]) State.pc = some 0x0204#16 := by decide

/-- T6.2 -/
theorem test_movImm : after (.movImm 0xF#4 0x07#8) (withRegs [(0xF#4, 0x01#8)]) (seeReg 0xF#4) =
    some (0x07#8, 0x07#8, 0x0202#16) := by decide

/-- T7.3 -/
theorem test_addImm : after (.addImm 0x0#4 0xFF#8) (withRegs [(0x0#4, 0x02#8), (0xF#4, 0x01#8)]) (seeReg 0x0#4) =
    some (0x01#8, 0x01#8, 0x0202#16) := by decide

/-- T8.1 -/
theorem test_movReg : after (.movReg 0x0#4 0x1#4) (withRegs [(0x0#4, 0x11#8), (0x1#4, 0x3C#8), (0xF#4, 0x01#8)])
    (seeReg 0x0#4) = some (0x3C#8, 0x01#8, 0x0202#16) := by decide

/-- T8.3 -/
theorem test_orReg : after (.orReg 0x0#4 0x1#4) (withRegs [(0x0#4, 0xF0#8), (0x1#4, 0x0F#8), (0xF#4, 0x01#8)])
    (seeReg 0x0#4) = some (0xFF#8, 0x01#8, 0x0202#16) := by decide

/-- T8.4 -/
theorem test_andReg : after (.andReg 0x0#4 0x1#4) (withRegs [(0x0#4, 0xF3#8), (0x1#4, 0x3F#8), (0xF#4, 0x01#8)])
    (seeReg 0x0#4) = some (0x33#8, 0x01#8, 0x0202#16) := by decide

/-- T8.5 -/
theorem test_xorReg : after (.xorReg 0x0#4 0x1#4) (withRegs [(0x0#4, 0xFF#8), (0x1#4, 0x0F#8), (0xF#4, 0x01#8)])
    (seeReg 0x0#4) = some (0xF0#8, 0x01#8, 0x0202#16) := by decide

/-- T8.8, T8.9: a sum of 255 and of 256. -/
theorem test_addReg : after (.addReg 0x0#4 0x1#4) (withRegs [(0x0#4, 0x80#8), (0x1#4, 0x7F#8), (0xF#4, 0x01#8)])
      (seeReg 0x0#4) = some (0xFF#8, 0x00#8, 0x0202#16) ∧
    after (.addReg 0x0#4 0x1#4) (withRegs [(0x0#4, 0x80#8), (0x1#4, 0x80#8)]) (seeReg 0x0#4) =
      some (0x00#8, 0x01#8, 0x0202#16) := by decide

/-- T8.13, T8.14: X = F keeps the result; Y = F adds the old VF. -/
theorem test_addReg_vf : after (.addReg 0xF#4 0x1#4) (withRegs [(0xF#4, 0xF0#8), (0x1#4, 0x20#8)]) (seeReg 0xF#4) =
      some (0x10#8, 0x10#8, 0x0202#16) ∧
    after (.addReg 0x0#4 0xF#4) (withRegs [(0x0#4, 0x01#8), (0xF#4, 0xFF#8)]) (seeReg 0x0#4) =
      some (0x00#8, 0x01#8, 0x0202#16) := by decide

/-- T8.17, T8.18 -/
theorem test_subReg : after (.subReg 0x0#4 0x1#4) (withRegs [(0x0#4, 0x03#8), (0x1#4, 0x05#8), (0xF#4, 0x01#8)])
      (seeReg 0x0#4) = some (0xFE#8, 0x00#8, 0x0202#16) ∧
    after (.subReg 0x0#4 0x1#4) (withRegs [(0x0#4, 0x07#8), (0x1#4, 0x07#8)]) (seeReg 0x0#4) =
      some (0x00#8, 0x01#8, 0x0202#16) := by decide

/-- T8.27, T8.29 -/
theorem test_shr : after (.shr 0x0#4 0x0#4) (withRegs [(0x0#4, 0xFF#8)]) (seeReg 0x0#4) =
      some (0x7F#8, 0x01#8, 0x0202#16) ∧
    after (.shr 0xF#4 0xF#4) (withRegs [(0xF#4, 0x06#8)]) (seeReg 0xF#4) = some (0x03#8, 0x03#8, 0x0202#16) := by decide

/-- T8.31, T8.32 -/
theorem test_rsb : after (.rsb 0x0#4 0x1#4) (withRegs [(0x0#4, 0x03#8), (0x1#4, 0x05#8)]) (seeReg 0x0#4) =
      some (0x02#8, 0x01#8, 0x0202#16) ∧
    after (.rsb 0x0#4 0x1#4) (withRegs [(0x0#4, 0x05#8), (0x1#4, 0x03#8), (0xF#4, 0x01#8)]) (seeReg 0x0#4) =
      some (0xFE#8, 0x00#8, 0x0202#16) := by decide

/-- T8.40, T8.37: the flag is 1, not 0x80, and Y is ignored. -/
theorem test_shl : after (.shl 0x0#4 0x1#4) (withRegs [(0x0#4, 0x81#8), (0x1#4, 0x0F#8)]) (seeReg 0x0#4) =
      some (0x02#8, 0x01#8, 0x0202#16) ∧
    after (.shl 0x0#4 0x0#4) (withRegs [(0x0#4, 0x40#8), (0xF#4, 0x01#8)]) (seeReg 0x0#4) =
      some (0x80#8, 0x00#8, 0x0202#16) := by decide

/-- TA.2 -/
theorem test_mvi : after (.mvi 0xFFF#12) { State.reset with i := 0x1234#16 } (fun t => (t.i, t.pc)) =
    some (0x0FFF#16, 0x0202#16) := by decide

/-- TB.2 -/
theorem test_jmi : after (.jmi 0xFFF#12) (withRegs [(0x0#4, 0xFF#8)]) State.pc = some 0x10FE#16 := by decide

/-- TC.1, TC.4 -/
theorem test_rand : after (.rand 0x0#4 0x0F#8) { State.reset with rnd := 0xA7#8 } (seeReg 0x0#4) =
      some (0x07#8, 0x00#8, 0x0202#16) ∧
    after (.rand 0xF#4 0x81#8) { State.reset with rnd := 0xFF#8 } (seeReg 0xF#4) =
      some (0x81#8, 0x81#8, 0x0202#16) := by decide

/-- TD.1: a row wraps to y = 0 and a column to x = 5; the twelve lit bytes, all others 0. -/
theorem test_sprite_wraps : after (.sprite 0x0#4 0x1#4 0x2#4)
    { withRegs [(0x0#4, 62#8), (0x1#4, 31#8)] with i := 0x0300#16, ram := [(0x300, 0xC0#8), (0x301, 0x81#8)] }
    (fun t => (t.vram.map Prod.fst, t.vram.all (·.2 == 0xFF#8), t.reg vf, t.pc)) =
    some ([15, 16, 17, 186, 187, 188, 6138, 6139, 6140, 6141, 6142, 6143], true, 0x00#8, 0x0202#16) := by decide

/-- TD.16: a collision, with the old VF as coordinate. -/
theorem test_sprite_collides : after (.sprite 0x0#4 0xF#4 0x1#4)
    { withRegs [(0x0#4, 0x03#8), (0xF#4, 0x04#8)] with
      i := 0x0300#16, ram := [(0x300, 0x80#8)], vram := [(777, 0xFF#8), (778, 0xFF#8), (779, 0xFF#8)] }
    (fun t => (t.vram, t.reg vf)) = some ([], 0x01#8) := by decide

/-- TE.2 -/
theorem test_skpr : after (.skpr 0xF#4) (withRegs [(0xF#4, 0xFF#8)]) (seeReg 0xF#4) =
    some (0xFF#8, 0xFF#8, 0x0202#16) := by decide

/-- TE.4 -/
theorem test_skup : after (.skup 0x3#4) { withRegs [(0x3#4, 0x10#8)] with pc := 0x0FFE#16 } State.pc =
    some 0x1002#16 := by decide

/-- TF.1 -/
theorem test_gdelay : after (.gdelay 0x0#4) { State.reset with dt := 0x2A#8 } (fun t => (t.reg 0x0#4, t.dt, t.pc)) =
    some (0x2A#8, 0x2A#8, 0x0202#16) := by decide

/-- TF.3 -/
theorem test_key : after (.key 0x0#4) (withRegs [(0x0#4, 0x33#8)]) (seeReg 0x0#4) =
    some (0x33#8, 0x00#8, 0x0202#16) := by decide

/-- TF.4 -/
theorem test_sdelay : after (.sdelay 0x0#4) (withRegs [(0x0#4, 0x05#8)]) (fun t => (t.dt, t.st, t.pc)) =
    some (0x05#8, 0x00#8, 0x0202#16) := by decide

/-- TF.6 -/
theorem test_ssound : after (.ssound 0x1#4) (withRegs [(0x1#4, 0x10#8)]) (fun t => (t.dt, t.st, t.pc)) =
    some (0x00#8, 0x10#8, 0x0202#16) := by decide

/-- TF.8, TF.9 -/
theorem test_adi : after (.adi 0x0#4) { withRegs [(0x0#4, 0x01#8)] with i := 0x0FFF#16 } (fun t => (t.i, t.reg vf)) =
      some (0x1000#16, 0x00#8) ∧
    after (.adi 0x0#4) { withRegs [(0x0#4, 0x02#8)] with i := 0xFFFF#16 } State.i = some 0x0001#16 := by decide

/-- TF.11 -/
theorem test_font : after (.font 0x0#4) (withRegs [(0x0#4, 0xFA#8)]) State.i = some 0x0032#16 := by decide

/-- TF.18, at the highest admissible I. -/
theorem test_bcd : after (.bcd 0x0#4) { withRegs [(0x0#4, 0x7B#8)] with i := 0x0FFD#16 } (fun t => (t.ram, t.i, t.pc)) =
    some ([(0xFFD, 0x01#8), (0xFFE, 0x02#8), (0xFFF, 0x03#8)], 0x0FFD#16, 0x0202#16) := by decide

/-- TF.20: I + 2 is not wrapped. -/
theorem test_bcd_outside : after (.bcd 0x0#4) { State.reset with i := 0xFFFF#16, opcode := 0xF033#16 }
    (fun t => (seeHalt t, t.ram)) = some ((false, 4#3, 0x0200#16, 0xF033#16), []) := by decide

/-- TF.21 -/
theorem test_str : after (.str 0x2#4) { withRegs [(0x0#4, 1#8), (0x1#4, 2#8), (0x2#4, 3#8), (0x3#4, 4#8)] with
    i := 0x0100#16 } (fun t => (t.ram, t.i, t.pc)) =
    some ([(0x300, 0x01#8), (0x301, 0x02#8), (0x302, 0x03#8)], 0x0100#16, 0x0202#16) := by decide

/-- TF.26 -/
theorem test_str_outside : after (.str 0x0#4) { State.reset with i := 0x0E00#16 } (fun t => (t.haltReason, t.ram)) =
    some (4#3, []) := by decide

/-- TF.28 -/
theorem test_ldr : after (.ldr 0x1#4) { withRegs [(0x2#4, 0x99#8)] with
    i := 0x0100#16, ram := [(0x300, 0xAA#8), (0x301, 0xBB#8), (0x302, 0xCC#8)] }
    (fun t => (t.reg 0x0#4, t.reg 0x1#4, t.reg 0x2#4, t.i)) = some (0xAA#8, 0xBB#8, 0x99#8, 0x0100#16) := by decide

/-- TF.30 -/
theorem test_ldr_outside : after (.ldr 0x1#4) { State.reset with i := 0x0DFF#16, ram := [(0xFFF, 0x5A#8)] }
    (fun t => (t.haltReason, t.reg 0x0#4)) = some (4#3, 0x00#8) := by decide

/-! ## The execution loop -/

/-- A machine that meets one input next. -/
def meeting (s : State) (inp : HostInput) : State := { s with inputs := [inp] }

/-- One loop iteration with both ticks as given, no stop request, the random byte 0. -/
def tick (tmr cpu : Bool) : HostInput := .iterate tmr cpu false 0x00#8

/-- TX.8: 0x6005 at 0x200. -/
theorem test_loop_executes : (nextOf (step (State.reset.withFetchWord 16 0x6005))).map
    (fun t => (t.reg 0x0#4, t.pc, t.opcode, t.gate)) = some (0x05#8, 0x0202#16, 0x6005#16, false) := by decide

/-- TX.7 -/
theorem test_loop_gate_closed : step (meeting State.reset (tick false false)) = .next State.reset := rfl

/-- TX.6: a fetch outside RAM records the opcode before it. -/
theorem test_loop_fetch_halts : (nextOf (step (meeting { State.reset with pc := 0x1000#16, opcode := 0x6001#16 }
    (tick false true)))).map seeHalt = some (false, 4#3, 0x1000#16, 0x6001#16) := by decide

/-- T8.42: an unknown opcode. -/
theorem test_loop_unknown_halts : (nextOf (step (State.reset.withFetchWord 16 0x8018))).map
    (fun t => (seeHalt t, t.pc)) = some ((false, 1#3, 0x0200#16, 0x8018#16), 0x0200#16) := by decide

/-- TT.2, TT.1 -/
theorem test_loop_tick : (nextOf (step (meeting { State.reset with st := 0x01#8, dt := 0x05#8 } (tick true false)))).map
      (fun t => (t.present, t.st, t.dt)) = some (true, 0x00#8, 0x04#8) ∧
    (nextOf (step (meeting State.reset (tick true false)))).map (fun t => (t.present, t.st, t.dt)) =
      some (true, 0x00#8, 0x00#8) := by decide

/-- TT.6: the tick comes before the instruction. -/
theorem test_loop_tick_first : (nextOf (step (meeting { withRegs [(0x0#4, 0x55#8)] with
    dt := 0x01#8, ram := [(0x200, 0xF0#8), (0x201, 0x07#8)] } (tick true true)))).map
    (fun t => (t.dt, t.reg 0x0#4, t.pc, t.gate)) = some (0x00#8, 0x00#8, 0x0202#16, false) := by decide

/-- TR.4: a stop request inside present; the rest of the iteration still happens. -/
theorem test_loop_stop : (nextOf (step (meeting { State.reset with
    st := 0x02#8, dt := 0x02#8, gate := true, ram := [(0x200, 0x70#8), (0x201, 0x01#8)] }
    (.iterate true false true 0x00#8)))).map (fun t => (t.run, t.st, t.dt, t.reg 0x0#4, t.pc)) =
    some (false, 0x01#8, 0x01#8, 0x01#8, 0x0202#16) := by decide

/-- TX.9, and the halted machine of R179. -/
theorem test_loop_stopped : step (meeting { State.reset with run := false } (tick true true)) =
      .next { State.reset with run := false } ∧
    step (meeting { State.reset with run := false, haltReason := 2#3 } (tick true true)) = .fault (.halted 2#3) :=
  ⟨rfl, rfl⟩

/-- TR.1 -/
theorem test_run_request : (nextOf (step (meeting { withRegs [(0x0#4, 0x55#8)] with
    run := false, pc := 0x0ABC#16, vram := [(195, 0xFF#8), (196, 0xFF#8), (197, 0xFF#8)], ram := [(0x200, 0x12#8)] }
    .runRequest))) = some { State.reset with ram := [(0x200, 0x12#8)] } := by decide

/-- TR.2 -/
theorem test_run_request_refused : (nextOf (step (meeting { withRegs [(0x0#4, 0x55#8)] with
    run := false, attached := ⟨true, false, true⟩ } .runRequest))).map
    (fun t => (t.setupError, t.run, t.reg 0x0#4)) = some (true, false, 0x55#8) := by decide

/-- R54: a tick and CLS in one iteration: present hands over the framebuffer CLS has not cleared yet. -/
theorem test_loop_present_before_instruction : (nextOf (step (meeting { State.reset with
    vram := [(0, 0xFF#8), (1, 0xFF#8), (2, 0xFF#8)], ram := [(0x200, 0x00#8), (0x201, 0xE0#8)] } (tick true true)))).map
    (fun t => (t.present, t.frame, t.vram)) = some (true, some [(0, 0xFF#8), (1, 0xFF#8), (2, 0xFF#8)], []) := by decide

/-- R198: at power-on nothing is attached, so a Run request raises `setup_error` and the machine stays Stopped. -/
theorem test_power_on : (nextOf (step (meeting State.reset.powerOn .runRequest))).map
    (fun t => (t.run, t.haltReason, t.setupError)) = some (false, 0#3, true) := by decide

/-! ## Other values of the parameters (R6) -/

/-- TD.5 with SPRITE_WRAP_INCLUSIVE = false: a column at 64 is not wrapped. -/
theorem test_sprite_exclusive_wrap : after (.sprite 0x0#4 0x1#4 0x1#4) { withRegs [(0x0#4, 64#8)] with
    i := 0x0300#16, ram := [(0x300, 0x80#8)], opcode := 0xD011#16, params := ⟨0x200, false⟩ } seeHalt =
    some (false, 5#3, 0x0200#16, 0xD011#16) := by decide

/-- TF.21 with REGBLOCK_BIAS = 0: the block starts at I itself. -/
theorem test_str_no_bias : after (.str 0x1#4) { withRegs [(0x0#4, 0x01#8), (0x1#4, 0x02#8)] with
    i := 0x0100#16, params := ⟨0, true⟩ } (fun t => (t.ram, t.i)) =
    some ([(0x100, 0x01#8), (0x101, 0x02#8)], 0x0100#16) := by decide

/-! ## Witnesses: states and operands that meet the hypotheses of each statement -/

/-- A state whose next step answers, other than the state after reset. -/
def busy : State := meeting (withRegs [(0x0#4, 0x05#8)]) (tick true false)

/-- The state after that step: the timer tick has presented the empty framebuffer. -/
def presented : State := { withRegs [(0x0#4, 0x05#8)] with present := true, frame := some [] }

theorem witness_decoded_word : decodeWord 0x7003#16 = .ok (.addImm 0x0#4 0x03#8) := by decide

theorem witness_opcode_rows : (⟨0xF00F#16, 0x8004#16⟩ : OpcodeRow) ∈ opcodeRows ∧
    (⟨0xF00F#16, 0x8004#16⟩ : OpcodeRow).matches 0x8F14#16 = true := by decide

/-- Parameters other than this hardware's, and a step that answers a next state. -/
theorem witness_parameters : ({ busy with params := ⟨0, false⟩ } : State).params ≠ Config.hardware ∧
    step { busy with params := ⟨0, false⟩ } = .next { presented with params := ⟨0, false⟩ } := ⟨by decide, rfl⟩

/-- The attach operations in one of their orders, a font of 80 bytes, and the shortest and the longest program. -/
theorem witness_power_on : (∀ p : Port, p = .display ∨ p = .ram ∨ p = .vram) ∧
    (List.replicate 80 0x00#8).length = 80 ∧ ([] : List Byte).length ≤ 3584 ∧
    (List.replicate 3584 0x00#8).length ≤ 3584 := by
  refine ⟨fun p => by cases p <;> decide, ?_⟩
  simp only [List.length_replicate]; decide

theorem witness_run_and_reset_requests :
    (meeting { State.reset with run := false } .runRequest).input = .runRequest ∧
    (meeting { State.reset with run := false } .runRequest).run = false ∧
    (meeting { State.reset with run := false } .runRequest).attached = ⟨true, true, true⟩ ∧
    (meeting { State.reset with run := false } .resetRequest).input = .resetRequest ∧
    (meeting { State.reset with run := false } .resetRequest).run = false := by decide

theorem witness_run_request_that_cannot_start :
    (meeting { State.reset with run := false, attached := ⟨true, true, false⟩ } .runRequest).attached ≠
      ⟨true, true, true⟩ ∧
    (meeting { State.reset with run := false, attached := ⟨true, true, false⟩ } .runRequest).run = false ∧
    (meeting { State.reset with run := false, attached := ⟨true, true, false⟩ } .runRequest).input = .runRequest ∧
    (meeting State.reset .runRequest).input = .runRequest ∧ (meeting State.reset .runRequest).run = true := by decide

/-- A Stopped machine that meets a load of so many font bytes and so many program bytes. -/
def loading (fontLen programLen : Nat) : State :=
  meeting { State.reset with run := false }
    (.load (List.replicate fontLen 0x00#8) (List.replicate programLen 0x00#8))

/-- Loads of the shortest and the longest program, of one byte more, and of a font one byte short. -/
theorem witness_loads :
    (loading 80 3584).input = .load (List.replicate 80 0x00#8) (List.replicate 3584 0x00#8) ∧
    (loading 80 3584).run = false ∧ (List.replicate 80 0x00#8).length = 80 ∧
    (List.replicate 0 0x00#8).length ≤ 3584 ∧ (List.replicate 3584 0x00#8).length ≤ 3584 ∧
    ¬(List.replicate 3585 0x00#8).length ≤ 3584 ∧ ¬(List.replicate 79 0x00#8).length = 80 := by
  refine ⟨rfl, rfl, ?_⟩
  simp only [List.length_replicate]; decide

theorem witness_host_moves_stopped :
    (meeting { State.reset with run := false } (.attach .vram)).input = .attach .vram ∧
    (meeting { State.reset with run := false } (.writeRam 0xFFF 0x01#8)).input = .writeRam 0xFFF 0x01#8 ∧
    (meeting { State.reset with run := false } (.writeRam 0x1000 0x01#8)).input = .writeRam 0x1000 0x01#8 ∧
    (meeting { State.reset with run := false } (.writeRam 0x1000 0x01#8)).run = false := by decide

theorem witness_host_moves_running :
    (meeting State.reset (.attach .ram)).input = .attach .ram ∧
    (meeting State.reset (.writeRam 0 0x01#8)).input = .writeRam 0 0x01#8 ∧
    (meeting State.reset (.load [] [])).input = .load [] [] ∧
    (meeting State.reset .resetRequest).input = .resetRequest ∧ (meeting State.reset .resetRequest).run = true := by
  decide

theorem witness_stopped_machines :
    (meeting { State.reset with run := false } (tick true true)).input = tick true true ∧
    (meeting { State.reset with run := false } (tick true true)).cleanlyStopped ∧
    (meeting { State.reset with run := false, haltReason := 5#3 } (tick true true)).halted := by
  unfold State.cleanlyStopped State.halted; decide

theorem witness_closed_gate : (meeting State.reset (tick true false)).input = .iterate true false false 0x00#8 ∧
    (meeting State.reset (tick true false)).run = true ∧ (meeting State.reset (tick true false)).gate = false := by
  decide

theorem witness_stop_requests : (meeting State.reset .stopRequest).input = .stopRequest ∧ State.reset.run = true ∧
    step { State.reset with inputs := .iterate true false false 0x00#8 :: [] } =
      .next { State.reset with present := true, frame := some [] } := ⟨rfl, rfl, rfl⟩

/-- An iteration that ticks, one that does not, and the steps that present nothing: of a Stopped machine, and of another
input. -/
theorem witness_presents :
    busy.input = .iterate true false false 0x00#8 ∧ busy.run = true ∧ step busy = .next presented ∧
    step (meeting State.reset (tick false false)) = .next State.reset ∧
    step (meeting { State.reset with run := false } (tick true true)) = .next { State.reset with run := false } ∧
    (meeting State.reset .stopRequest).input = .stopRequest ∧
    step (meeting State.reset .stopRequest) = .next { State.reset with run := false } :=
  ⟨rfl, rfl, rfl, rfl, rfl, rfl, rfl⟩

/-- PC at the last address that can be fetched from, and at the first that cannot. -/
theorem witness_executes :
    Executes (meeting { State.reset with pc := 0x0FFE#16 } (tick false true)) false true false 0x00#8 ∧
    (meeting { State.reset with pc := 0x0FFE#16 } (tick false true)).pc.toNat ≤ 0x0FFE ∧
    Executes (meeting { State.reset with pc := 0x0FFF#16, gate := true } (tick true false)) true false false 0x00#8 ∧
    (meeting { State.reset with pc := 0x0FFF#16, gate := true } (tick true false)).pc.toNat > 0x0FFE := by
  unfold Executes; decide

theorem witness_step_runs_instruction :
    Executes (State.reset.withFetchWord 16 0x6005) false true false 0x00#8 ∧
    (State.reset.withFetchWord 16 0x6005).pc.toNat ≤ 0x0FFE ∧
    decode [(State.reset.withFetchWord 16 0x6005).ramByte 0x200, (State.reset.withFetchWord 16 0x6005).ramByte 0x201] =
      .ok (.movImm 0x0#4 0x05#8, []) := by
  unfold Executes; decide

theorem witness_unknown_opcode :
    Executes (State.reset.withFetchWord 16 0x8018) false true false 0x00#8 ∧
    (State.reset.withFetchWord 16 0x8018).pc.toNat ≤ 0x0FFE ∧
    wordWellFormed (State.reset.withFetchWord 16 0x8018).wordAtPc = false := by
  unfold Executes; decide

theorem witness_tick_before_instruction :
    Executes { State.reset.withFetchWord 16 0xF307 with inputs := [tick true true] } true true false 0x00#8 ∧
    { State.reset.withFetchWord 16 0xF307 with inputs := [tick true true] }.pc.toNat ≤ 0x0FFE ∧
    { State.reset.withFetchWord 16 0xF307 with inputs := [tick true true] }.wordAtPc = 0xF#4 ++ 0x3#4 ++ 0x07#8 := by
  unfold Executes; decide

theorem busy_monochrome : busy.monochrome := fun _ _ _ _ => ⟨0x00#8, .inl rfl, fun _ _ => rfl⟩

/-- A state other than the one after reset that meets the invariant, and whose step answers a next state. -/
theorem witness_invariant : busy.Inv ∧ ∃ t, step busy = .next t := by
  refine
    ⟨⟨by decide, by decide, busy_monochrome, by decide, ?_, by decide, by decide, by decide, ?_, by decide⟩, _, rfl⟩
  · intro m hm; cases hm
  · intro k hk; simp [busy, meeting, withRegs, State.setReg, State.reset]

/-- A state in which a presented frame stands meets the invariant too. -/
theorem witness_invariant_presented : step busy = .next presented ∧ presented.frame.isSome = true ∧
    Memory.monochrome [] := ⟨rfl, rfl, fun _ _ _ _ => ⟨0x00#8, .inl rfl, fun _ _ => rfl⟩⟩

theorem witness_monochrome : busy.monochrome ∧ ∃ t, exec .cls busy = .next t := ⟨busy_monochrome, _, rfl⟩

/-- Each line of the table of causes at the boundary of its condition, beside the value where it raises nothing. -/
theorem witness_halt_table : haltTable State.reset .rts = some 3#3 ∧
    haltTable { State.reset with sp := 1#4 } .rts = none ∧
    haltTable { State.reset with sp := 15#4 } (.jsr 0x300#12) = some 2#3 ∧
    haltTable { State.reset with sp := 14#4 } (.jsr 0x300#12) = none ∧
    haltTable { State.reset with i := 0x0FFE#16 } (.bcd 0x0#4) = some 4#3 ∧
    haltTable { State.reset with i := 0x0FFD#16 } (.bcd 0x0#4) = none ∧
    haltTable { State.reset with i := 0x0DFF#16 } (.str 0x1#4) = some 4#3 ∧
    haltTable { State.reset with i := 0x0DFE#16 } (.str 0x1#4) = none ∧
    haltTable { State.reset with i := 0x0DF1#16 } (.ldr 0xF#4) = some 4#3 ∧
    haltTable { State.reset with i := 0x0DF0#16 } (.ldr 0xF#4) = none := by decide

theorem witness_halt_table_sprite :
    haltTable { State.reset with i := 0x0FFF#16 } (.sprite 0x0#4 0x1#4 0x2#4) = some 4#3 ∧
    haltTable { State.reset with i := 0x0FFF#16 } (.sprite 0x0#4 0x1#4 0x1#4) = none ∧
    haltTable { State.reset with i := 0xFFFF#16 } (.sprite 0x0#4 0x1#4 0x0#4) = none ∧
    haltTable (withRegs [(0x0#4, 121#8)]) (.sprite 0x0#4 0x1#4 0x1#4) = some 5#3 ∧
    haltTable (withRegs [(0x0#4, 120#8)]) (.sprite 0x0#4 0x1#4 0x1#4) = none ∧
    haltTable (withRegs [(0x1#4, 50#8)]) (.sprite 0x0#4 0x1#4 0xF#4) = some 5#3 ∧
    haltTable (withRegs [(0x1#4, 49#8)]) (.sprite 0x0#4 0x1#4 0xF#4) = none := by decide

/-- Both clauses on PC: an instruction that completes, and one that halts. -/
theorem witness_pc_classes :
    (∃ t, exec (.skup 0x0#4) State.reset = .next t) ∧ haltTable State.reset (.skup 0x0#4) = none ∧
    (∃ t, exec .rts State.reset = .next t) ∧ haltTable State.reset .rts ≠ none :=
  ⟨⟨_, rfl⟩, rfl, ⟨_, rfl⟩, by decide⟩

/-- For each piece of state an instruction that changes it. -/
theorem witness_writers : after (.mvi 0x123#12) State.reset (·.i != 0x0000#16) = some true ∧
    after (.jsr 0x300#12) State.reset (fun t => t.sp != 0#4 && t.stack != State.reset.stack) = some true ∧
    after (.sdelay 0x0#4) (withRegs [(0x0#4, 1#8)]) (·.dt != 0x00#8) = some true ∧
    after (.ssound 0x0#4) (withRegs [(0x0#4, 1#8)]) (·.st != 0x00#8) = some true ∧
    after (.str 0x0#4) { withRegs [(0x0#4, 1#8)] with ram := [(0x200, 0x00#8)] } (·.ramByte 0x200 != 0x00#8) =
      some true ∧
    after .cls { State.reset with vram := [(0, 0xFF#8)] } (·.vramByte 0 != 0xFF#8) = some true := by decide

theorem witness_general_registers : (0x0#4 : Nibble) ≠ vf ∧
    (∃ t, exec (.addReg 0x0#4 0x1#4) State.reset = .next t) ∧
    (∃ t, exec (.sprite 0x0#4 0x1#4 0x0#4) State.reset = .next t) ∧
    haltTable State.reset (.sprite 0x0#4 0x1#4 0x0#4) = none :=
  ⟨by decide, ⟨_, rfl⟩, ⟨_, rfl⟩, by decide⟩

theorem witness_stack_slots : (∃ t, exec (.jsr 0x300#12) { State.reset with sp := 14#4 } = .next t) ∧
    (15 : Nat) < 16 ∧ 15 ≠ ({ State.reset with sp := 14#4 } : State).sp.toNat :=
  ⟨⟨_, rfl⟩, by decide, by decide⟩

theorem witness_not_ssound_not_rand : (∀ x, Instr.gdelay 0x0#4 ≠ .ssound x) ∧ ∀ x kk, Instr.gdelay 0x0#4 ≠ .rand x kk :=
  ⟨fun _ => nofun, fun _ _ => nofun⟩

theorem witness_stack_depths : ({ State.reset with sp := 15#4 } : State).sp.toNat = 14 + 1 ∧ State.reset.sp = 0#4 ∧
    ({ State.reset with sp := 14#4 } : State).sp ≠ 15#4 ∧ ({ State.reset with sp := 15#4 } : State).sp = 15#4 := by
  decide

/-- The call, and a later state in which a register has changed and the stack has not. -/
theorem witness_jsr_then_rts : State.reset.sp ≠ 15#4 ∧ ∃ t, exec (.jsr 0x300#12) State.reset = .next t ∧
    (t.setReg 0x0#4 0x07#8).sp = t.sp ∧ (t.setReg 0x0#4 0x07#8).stack = t.stack :=
  ⟨by decide, _, rfl, rfl, rfl⟩

theorem witness_skip_low_nibble : (0x1#4 : Nibble) ≠ 0x0#4 := by decide

/-- X = F and X other than F, the two cases of a flag-writing instruction. -/
theorem witness_flag_destinations : (0x0#4 : Nibble) ≠ vf ∧ (0xF#4 : Nibble) = vf := by decide

theorem witness_sprite_fits :
    SpriteFits { withRegs [(0x0#4, 120#8), (0x1#4, 63#8)] with i := 0x0FFF#16 } 120 63 1 ∧
    SpriteFits { State.reset with i := 0xFFFF#16 } 200 200 0 := by
  unfold SpriteFits; decide

/-- The exclusive wrap at its edges: a last column at 63 fits, one at 64 does not; so for a last row at 31 and 32. -/
theorem witness_exclusive_wrap :
    SpriteFits { State.reset with params := ⟨0x200, false⟩ } 56 17 15 ∧
    ¬SpriteInGrid { State.reset with params := ⟨0x200, false⟩ } 57 0 1 ∧
    ¬SpriteInGrid { State.reset with params := ⟨0x200, false⟩ } 0 18 15 ∧ 57 + 7 = 64 ∧ 18 + 14 = 32 ∧
    ({ State.reset with params := ⟨0x200, false⟩ } : State).i.toNat + (0x1#4 : Nibble).toNat - 1 ≤ 0xFFF := by
  unfold SpriteFits; decide

/-- Both conclusions on VF: the pixel at the left of the row is covered, and lit or not. -/
theorem witness_sprite_covers :
    SpriteCovers { State.reset with i := 0x0300#16, ram := [(0x300, 0x80#8)] } 64 0 1 0 0 ∧
    ¬PixelLit { State.reset with i := 0x0300#16, ram := [(0x300, 0x80#8)] } 0 0 ∧
    PixelLit { State.reset with vram := [(0, 0xFF#8), (1, 0xFF#8), (2, 0xFF#8)] } 0 0 := by
  refine ⟨⟨0, 0, by decide⟩, ?_⟩
  unfold PixelLit; decide

theorem witness_sprite_halts : (0x1#4 : Nibble).toNat ≥ 1 ∧
    ({ State.reset with i := 0x1000#16 } : State).i.toNat + (0x1#4 : Nibble).toNat - 1 > 0xFFF ∧
    ({ State.reset with i := 0x0FFF#16 } : State).i.toNat + (0x1#4 : Nibble).toNat - 1 ≤ 0xFFF ∧
    ¬SpriteInGrid { State.reset with i := 0x0FFF#16 } 121 0 1 ∧ SpriteInGrid State.reset 120 63 1 ∧
    ¬SpriteInGrid State.reset 0 64 1 ∧ State.reset.params.spriteWrapInclusive = true := by decide

theorem witness_sprite_twice : busy.monochrome ∧ (0x0#4 : Nibble) ≠ vf ∧ (0x1#4 : Nibble) ≠ vf ∧
    SpriteFits busy (busy.reg 0x0#4).toNat (busy.reg 0x1#4).toNat (0x2#4 : Nibble).toNat ∧
    ∃ t, exec (.sprite 0x0#4 0x1#4 0x2#4) busy = .next t := by
  refine ⟨busy_monochrome, by decide, by decide, ?_, _, rfl⟩
  unfold SpriteFits; decide

/-- The last I at which BCD stores, and the first at which it halts. -/
theorem witness_bcd : ({ State.reset with i := 0x0FFD#16 } : State).dataAddr 2 ≤ 0xFFF ∧
    ({ State.reset with i := 0x0FFE#16 } : State).dataAddr 2 > 0xFFF := by decide

/-- The last I at which a block of two is in RAM, and the first at which it is not; every register of it. -/
theorem witness_block : ({ State.reset with i := 0x0DFE#16 } : State).blockBase + (0x1#4 : Nibble).toNat ≤ 0xFFF ∧
    ({ State.reset with i := 0x0DFF#16 } : State).blockBase + (0x1#4 : Nibble).toNat > 0xFFF ∧
    (0x1#4 : Nibble).toNat ≤ (0x1#4 : Nibble).toNat ∧ (0x1#4 : Nibble).toNat < (0x2#4 : Nibble).toNat := by decide

/-- The store, and a later state in which the registers have changed and RAM, I and the parameters have not. -/
theorem witness_str_then_ldr :
    (withRegs [(0x0#4, 0x05#8)]).params.regblockBias + (withRegs [(0x0#4, 0x05#8)]).i.toNat + (0x1#4 : Nibble).toNat ≤
      0xFFF ∧
    ∃ t, exec (.str 0x1#4) (withRegs [(0x0#4, 0x05#8)]) = .next t ∧
      (t.setReg 0x0#4 0x07#8).i = (withRegs [(0x0#4, 0x05#8)]).i ∧
      (t.setReg 0x0#4 0x07#8).params = (withRegs [(0x0#4, 0x05#8)]).params ∧
      ∀ a, (t.setReg 0x0#4 0x07#8).ramByte a = t.ramByte a :=
  ⟨by decide, _, rfl, rfl, rfl, fun _ => rfl⟩

end Sys2Proof.Tests
end

section
/-! SUPPORT. What an instruction and a step never touch, what a halt changes, the reset values, and the wrap of a
position at the edge of the grid; then the settled statements of spec/00_scope.md. -/

namespace Sys2Proof.Machine

/-! ## The frame of every instruction and every step -/

/-- `t` is `s` outside the state an instruction may write: OPCODE, GATE, ATTACHED, the strobes and the frame, the
parameters and the inputs are those of `s`. -/
def ExecFrame (s t : State) : Prop :=
  t = { s with
    v := t.v, i := t.i, pc := t.pc, stack := t.stack, sp := t.sp, dt := t.dt, st := t.st, run := t.run,
    haltReason := t.haltReason, haltPc := t.haltPc, haltOpcode := t.haltOpcode, ram := t.ram, vram := t.vram }

theorem ExecFrame.params_eq {s t : State} (h : ExecFrame s t) : t.params = s.params := by
  unfold ExecFrame at h
  rw [h]

theorem State.halt_execFrame (s : State) (c : HaltCause) : ExecFrame s (s.halt c) := rfl

/-- An instruction that may halt keeps the frame when its completion does. -/
theorem State.orHalt_execFrame {s t : State} {r : Except HaltCause State} (h : s.orHalt r = .next t)
    (hok : r = .ok t → ExecFrame s t) : ExecFrame s t := by
  rcases State.orHalt_cases h with hr | ⟨c, -, rfl⟩
  · exact hok hr
  · exact s.halt_execFrame c

theorem State.skipIf_execFrame {s t : State} {cond : Bool} (h : s.skipIf cond = .next t) : ExecFrame s t := by
  cases cond <;> cases h <;> rfl

theorem State.pop_execFrame {s t : State} (h : s.pop = .ok t) : ExecFrame s t := by
  rcases s.pop_cases with ⟨-, hp⟩ | ⟨-, hp⟩
  · cases hp.symm.trans h
  · cases hp.symm.trans h; rfl

/-- A push, then a jump: the body of JSR (R83). -/
theorem State.push_setPc_execFrame {s t : State} {ret target : Word}
    (h : (s.push ret).map (fun u => u.setPc target) = .ok t) : ExecFrame s t := by
  rcases s.push_cases ret with ⟨-, hp⟩ | ⟨-, hp⟩
  · rw [hp] at h; cases h
  · rw [hp] at h; cases h; rfl

/-- An address check before the writes of a memory instruction (R43). -/
theorem ramCheck_execFrame {s t u : State} {a : Nat} (hu : ExecFrame s u)
    (h : (if inRam a then .ok u else .error HaltCause.addrOutOfRange) = Except.ok t) : ExecFrame s t := by
  split at h
  · cases h; exact hu
  · cases h

theorem State.checkedSprite_execFrame {s t : State} {x0 y0 n : Nat} (h : s.checkedSprite x0 y0 n = .ok t) :
    ExecFrame s t := by
  rcases s.checkedSprite_cases x0 y0 n with ⟨-, hc⟩ | ⟨-, -, hc⟩ | ⟨-, -, hc⟩
  · cases hc.symm.trans h
  · cases hc.symm.trans h
  · cases hc.symm.trans h; rfl

/-- No instruction, completing or halting, writes outside the execution state. -/
theorem exec_execFrame {i : Instr} {s t : State} (h : exec i s = .next t) : ExecFrame s t := by
  cases i with
  | rts => exact State.orHalt_execFrame h State.pop_execFrame
  | jsr nnn => exact State.orHalt_execFrame h State.push_setPc_execFrame
  | sprite x y n => exact State.orHalt_execFrame h State.checkedSprite_execFrame
  | bcd x =>
    refine State.orHalt_execFrame h (ramCheck_execFrame ?_)
    rw [State.setRamBytes_eq]; rfl
  | str x =>
    refine State.orHalt_execFrame h (ramCheck_execFrame ?_)
    rw [State.storeBlock_eq]; rfl
  | ldr x =>
    refine State.orHalt_execFrame h (ramCheck_execFrame ?_)
    rw [State.loadBlock_eq]; rfl
  | skeqImm | skneImm | skeqReg | skneReg => exact State.skipIf_execFrame h
  | cls | jmp | movImm | addImm | movReg | orReg | andReg | xorReg | addReg | subReg | shr | rsb | shl | mvi | jmi
  | rand | skpr | skup | gdelay | key | sdelay | ssound | adi | font => cases h; rfl

theorem State.instrStep_params {s t : State} (h : s.instrStep = .next t) : t.params = s.params := by
  rcases State.instrStep_cases h with ⟨-, ht⟩ | ⟨-, op, -, ⟨e, -, ht⟩ | ⟨i, -, ht⟩⟩
  · cases ht; rfl
  · cases ht; rfl
  · exact (exec_execFrame ht.symm).params_eq

@[simp] theorem State.sample_params (s : State) (tmr cpu stop : Bool) (rnd : Byte) :
    (s.sample tmr cpu stop rnd).params = s.params := by rw [State.sample_eq]

@[simp] theorem State.inputTaken_params (s : State) : s.inputTaken.params = s.params := by rw [State.inputTaken_eq]

theorem State.iterate_params {s t : State} {tmr cpu stop : Bool} {rnd : Byte}
    (h : s.iterate tmr cpu stop rnd = .next t) : t.params = s.params := by
  rcases s.iterate_cases tmr cpu stop rnd with ⟨-, -, hi⟩ | ⟨-, -, -, hi⟩ | ⟨-, -, hi⟩ | ⟨-, -, hi⟩
  · obtain ⟨u, hu, rfl⟩ := closeGate_next (hi.symm.trans h)
    exact (State.instrStep_params hu).trans (s.sample_params tmr cpu stop rnd)
  · cases hi.symm.trans h; exact s.sample_params tmr cpu stop rnd
  · cases hi.symm.trans h; rfl
  · cases hi.symm.trans h

theorem State.runRequest_params (s : State) : s.runRequest.params = s.params := by
  rcases s.runRequest_cases with ⟨-, hr⟩ | ⟨-, -, hr⟩ | ⟨-, -, hr⟩
  · rw [hr]
  · rw [hr]; rfl
  · rw [hr]

/-- A move of the host that is answered is the move itself, made while Stopped (R170). -/
theorem State.whileStopped_next {s t : State} {r : Result} (h : s.whileStopped r = .next t) :
    s.run = false ∧ r = .next t := by
  unfold State.whileStopped at h
  split at h
  · cases h
  · rename_i hr; exact ⟨by simpa using hr, h⟩

/-- An answered load is a launch the loader may make, performed (R167). -/
theorem State.loadRequest_next {s t : State} {font program : List Byte}
    (h : s.loadRequest font program = .next t) : launchWellFormed font program = true ∧ t = s.load font program := by
  unfold State.loadRequest at h
  split at h
  · rename_i hl; cases h; exact ⟨hl, rfl⟩
  · cases h

/-- An answered host write is to an address of RAM, performed (R170). -/
theorem State.hostWrite_next {s t : State} {a : Nat} {b : Byte} (h : s.hostWrite a b = .next t) :
    inRam a = true ∧ t = s.setRamByte a b := by
  unfold State.hostWrite at h
  split at h
  · rename_i ha; cases h; exact ⟨ha, rfl⟩
  · cases h

theorem State.receive_params {s t : State} {inp : HostInput} (h : s.receive inp = .next t) :
    t.params = s.params := by
  cases inp with
  | iterate tmr cpu stop rnd => exact State.iterate_params h
  | stopRequest => cases h; rfl
  | runRequest => cases h; exact s.runRequest_params
  | resetRequest => cases (State.whileStopped_next h).2; rfl
  | attach port => cases (State.whileStopped_next h).2; rfl
  | load font program =>
    obtain ⟨-, rfl⟩ := State.loadRequest_next (State.whileStopped_next h).2
    rw [State.load_eq]
  | writeRam a b =>
    obtain ⟨-, rfl⟩ := State.hostWrite_next (State.whileStopped_next h).2
    rw [State.setRamByte_eq]

/-- Settles O7: taking an input and receiving it both keep the parameters. -/
theorem noStepChangesTheParameters : Obligations.NoStepChangesTheParameters := by
  intro s t h
  exact (State.receive_params h).trans s.inputTaken_params

/-! ## What a halt changes -/

/-- Halt entry writes the halt registers and RUN, and no other piece of state (R176). -/
theorem State.halt_sameBut (s : State) (c : HaltCause) : SameBut [.haltRegs, .run] s (s.halt c) := by
  intro p hp
  cases p with
  | haltRegs | run => exact absurd hp (by decide)
  | regs | ram | vram => exact fun _ => rfl
  | stack => exact ⟨rfl, rfl⟩
  | strobes | inputs => exact ⟨rfl, rfl, rfl⟩
  | i | pc | dt | st | opcode | gate | attached | params => rfl

/-- An instruction that goes to halt entry makes it and changes nothing else (R176, R177). -/
theorem haltsWith_of_exec_eq_halt {i : Instr} {s : State} {c : HaltCause} (h : exec i s = .next (s.halt c)) :
    HaltsWith i s c.code :=
  ⟨s.halt c, h, ⟨rfl, rfl, rfl, rfl⟩, s.halt_sameBut c⟩

/-! ## The wrap at the edge of the grid -/

/-- A coordinate equal to the size of the grid is not wrapped by the exclusive wrap (R126). -/
theorem State.wrapped_size_of_exclusive {s : State} (hp : s.params.spriteWrapInclusive = false) (size : Nat) :
    s.wrapped size size = size := by
  simp [State.wrapped, hp]

/-- With the exclusive wrap, a sprite with a position on the edge column or the edge row leaves the grid (R127). -/
theorem not_spriteInGrid_of_edge {s : State} {x0 y0 n : Nat} (hp : s.params.spriteWrapInclusive = false) (hn : n ≥ 1)
    (hedge : (∃ c, c < 8 ∧ x0 + c = 64) ∨ ∃ r, r < n ∧ y0 + r = 32) : ¬SpriteInGrid s x0 y0 n := by
  intro hgrid
  rcases hedge with ⟨c, hc, hx⟩ | ⟨r, hr, hy⟩
  · have hcol := (hgrid 0 hn c hc).1
    rw [hx, State.wrapped_size_of_exclusive hp] at hcol
    omega
  · have hrow := (hgrid r hr 0 (by decide)).2
    rw [hy, State.wrapped_size_of_exclusive hp] at hrow
    omega

/-- The second check of R127: rows in RAM and a position outside the grid halt with code 5. -/
theorem sprite_haltsWith_of_not_inGrid {s : State} {x y n : Nibble}
    (hrows : n.toNat ≥ 1 → s.i.toNat + n.toNat - 1 ≤ 0xFFF)
    (hgrid : ¬SpriteInGrid s (s.reg x).toNat (s.reg y).toNat n.toNat) : HaltsWith (.sprite x y n) s 5#3 := by
  rcases s.checkedSprite_cases (s.reg x).toNat (s.reg y).toNat n.toNat with ⟨hr, -⟩ | ⟨-, -, hc⟩ | ⟨-, hg, -⟩
  · exact absurd ((s.spriteRowsInRam_iff n.toNat).2 hrows) hr
  · exact haltsWith_of_exec_eq_halt (c := .vramOutOfRange) (by rw [exec, execSprite, hc, State.orHalt_error])
  · exact absurd ((spriteInGrid_iff_claim s _ _ _).1 hg) hgrid

/-- Settles O49: the edge position keeps its coordinate, so the second check of R127 fails. -/
theorem exclusiveWrapHaltsAtTheEdge : Obligations.ExclusiveWrapHaltsAtTheEdge := by
  intro s x y n hp hn hrows hedge
  exact sprite_haltsWith_of_not_inGrid (fun _ => hrows) (not_spriteInGrid_of_edge hp hn hedge)

/-! ## The reset values -/

/-- `Reset()` writes every reset value, whatever the machine held (R195). -/
theorem State.resetCore_atReset (s : State) : s.resetCore.atReset := by
  have hregs : ∀ r, s.resetCore.reg r = 0x00#8 := fun r => by simp [State.reg, State.resetCore, State.reset]
  have hstack : ∀ k (h : k < 16), s.resetCore.stack[k]'h = 0x0000#16 := fun k h => by
    simp [State.resetCore, State.reset]
  exact ⟨hregs, rfl, rfl, rfl, hstack, rfl, rfl, rfl, rfl, rfl, rfl, rfl, fun _ _ => rfl⟩

/-- Settles O6: State.reset is what `Reset()` makes of itself. -/
theorem resetStateHoldsTheResetValues : Obligations.ResetStateHoldsTheResetValues :=
  ⟨State.reset.resetCore_atReset, rfl, rfl, rfl⟩

end Sys2Proof.Machine
end

section
/-! SUPPORT. The two ends of an instruction: the halt the table of causes gives it, or the one next state of its
completion; what completing leaves in each piece of state; and the framebuffer under a sprite drawn. Then the settled
statements of spec/10_state.md. -/

namespace Sys2Proof.Machine

/-! ## An instruction halts as tabled, or completes -/

/-- The next state of an instruction that raises no halt. Of a block or digit transfer only the field it writes is
taken, so a field that an instruction does not write is that of `s` by definition. -/
def State.completed (s : State) : Instr → State
  | .cls => s.clearVram.advance
  | .rts => { s with sp := s.sp - 1#4, pc := s.stack[(s.sp - 1#4).toNat]'(s.sp - 1#4).isLt }
  | .jmp nnn => s.setPc (Word.ofAddr nnn)
  | .jsr nnn =>
    { s with
      stack := s.stack.set s.sp.toNat (s.pc + 2#16) s.sp.isLt, sp := s.sp + 1#4, pc := Word.ofAddr nnn }
  | .skeqImm x kk => s.setPc (if s.reg x == kk then s.pc + 4#16 else s.pc + 2#16)
  | .skneImm x kk => s.setPc (if s.reg x != kk then s.pc + 4#16 else s.pc + 2#16)
  | .skeqReg x y => s.setPc (if s.reg x == s.reg y then s.pc + 4#16 else s.pc + 2#16)
  | .skneReg x y => s.setPc (if s.reg x != s.reg y then s.pc + 4#16 else s.pc + 2#16)
  | .movImm x kk => (s.setReg x kk).advance
  | .addImm x kk => (s.setReg x (s.reg x + kk)).advance
  | .movReg x y => (s.setReg x (s.reg y)).advance
  | .orReg x y => (s.setReg x (s.reg x ||| s.reg y)).advance
  | .andReg x y => (s.setReg x (s.reg x &&& s.reg y)).advance
  | .xorReg x y => (s.setReg x (s.reg x ^^^ s.reg y)).advance
  | .addReg x y => (s.writeFlagged x (carryFlag (s.reg x) (s.reg y)) (s.reg x + s.reg y)).advance
  | .subReg x y => (s.writeFlagged x (notBorrowFlag (s.reg x) (s.reg y)) (s.reg x - s.reg y)).advance
  | .shr x _ => (s.writeFlagged x (lowBitFlag (s.reg x)) (s.reg x >>> 1)).advance
  | .rsb x y => (s.writeFlagged x (notBorrowFlag (s.reg y) (s.reg x)) (s.reg y - s.reg x)).advance
  | .shl x _ => (s.writeFlagged x (highBitFlag (s.reg x)) (s.reg x <<< 1)).advance
  | .mvi nnn => (s.setI (Word.ofAddr nnn)).advance
  | .jmi nnn => s.setPc (s.indexedTarget nnn)
  | .rand x kk => (s.setReg x (s.rnd &&& kk)).advance
  | .sprite x y n => (s.withSprite (s.reg x).toNat (s.reg y).toNat n.toNat).advance
  | .skpr _ => s.advance
  | .skup _ => s.skip
  | .gdelay x => (s.setReg x s.dt).advance
  | .key _ => s.advance
  | .sdelay x => (s.setDt (s.reg x)).advance
  | .ssound x => (s.setSt (s.reg x)).advance
  | .adi x => (s.setI (s.i + Word.ofByte (s.reg x))).advance
  | .font x => (s.setI (glyphAddr (s.reg x))).advance
  | .bcd x => State.advance { s with ram := (s.setRamBytes (s.dataAddr 0) (bcdDigits (s.reg x))).ram }
  | .str x => State.advance { s with ram := (s.storeBlock s.blockBase (x.toNat + 1)).ram }
  | .ldr x => State.advance { s with v := (s.loadBlock s.blockBase (x.toNat + 1)).v }

theorem State.skipIf_eq (s : State) (cond : Bool) :
    s.skipIf cond = .next (s.setPc (if cond then s.pc + 4#16 else s.pc + 2#16)) := by
  cases cond <;> rfl

/-- An instruction that completes behind one address check (R43), and is tabled to halt where the check fails. -/
theorem exec_cases_of_ramCheck {i : Instr} {s u : State} {a : Nat}
    (he : exec i s = s.orHalt (if inRam a then .ok u else .error .addrOutOfRange))
    (htable : haltTable s i = if a > 0xFFF then some 4#3 else none) (hu : u = s.completed i) :
    (∃ c : HaltCause, haltTable s i = some c.code ∧ exec i s = .next (s.halt c)) ∨
    (haltTable s i = none ∧ exec i s = .next (s.completed i)) := by
  have hin := inRam_iff a
  by_cases h : a > 0xFFF
  · exact .inl ⟨.addrOutOfRange, htable.trans (if_pos h),
      he.trans (by rw [if_neg (mt hin.1 (by omega)), State.orHalt_error])⟩
  · exact .inr ⟨htable.trans (if_neg h), he.trans (by rw [if_pos (hin.2 (by omega)), State.orHalt_ok, hu])⟩

/-- Every instruction raises the halt of the table, or none is tabled and it completes (R175, R177). -/
theorem exec_cases (i : Instr) (s : State) :
    (∃ c : HaltCause, haltTable s i = some c.code ∧ exec i s = .next (s.halt c)) ∨
    (haltTable s i = none ∧ exec i s = .next (s.completed i)) := by
  cases i with
  | rts =>
    rcases s.pop_cases with ⟨h, hp⟩ | ⟨h, hp⟩
    · exact .inl ⟨.stackUnderflow, if_pos h, by rw [exec, execRts, hp, State.orHalt_error]⟩
    · exact .inr ⟨if_neg h, by rw [exec, execRts, hp, State.orHalt_ok]; rfl⟩
  | jsr nnn =>
    rcases s.push_cases (s.pc + 2#16) with ⟨h, hp⟩ | ⟨h, hp⟩
    · exact .inl ⟨.stackOverflow, if_pos h, by rw [exec, execJsr, hp]; rfl⟩
    · exact .inr ⟨if_neg h, by rw [exec, execJsr, hp]; rfl⟩
  | sprite x y n =>
    have hrows : s.spriteRowsInRam n.toNat = true ↔ ¬(n.toNat ≥ 1 ∧ s.i.toNat + n.toNat - 1 > 0xFFF) :=
      (s.spriteRowsInRam_iff n.toNat).trans (by omega)
    have hgrid := spriteInGrid_iff_claim s (s.reg x).toNat (s.reg y).toNat n.toNat
    rcases s.checkedSprite_cases (s.reg x).toNat (s.reg y).toNat n.toNat with ⟨hr, hc⟩ | ⟨hr, hg, hc⟩ | ⟨hr, hg, hc⟩
    · exact .inl ⟨.addrOutOfRange, if_pos (not_not.1 (mt hrows.2 hr)), by rw [exec, execSprite, hc]; rfl⟩
    · exact .inl ⟨.vramOutOfRange, (if_neg (hrows.1 hr)).trans (if_pos (mt hgrid.2 hg)),
        by rw [exec, execSprite, hc]; rfl⟩
    · exact .inr ⟨(if_neg (hrows.1 hr)).trans (if_neg (not_not_intro (hgrid.1 hg))),
        by rw [exec, execSprite, hc]; rfl⟩
  | bcd x => exact exec_cases_of_ramCheck rfl rfl (by rw [State.setRamBytes_eq]; rfl)
  | str x => exact exec_cases_of_ramCheck rfl rfl (by rw [State.storeBlock_eq]; rfl)
  | ldr x => exact exec_cases_of_ramCheck rfl rfl (by rw [State.loadBlock_eq]; rfl)
  | skeqImm | skneImm | skeqReg | skneReg => exact .inr ⟨rfl, s.skipIf_eq _⟩
  | cls | jmp | movImm | addImm | movReg | orReg | andReg | xorReg | addReg | subReg | shr | rsb | shl | mvi | jmi
  | rand | skpr | skup | gdelay | key | sdelay | ssound | adi | font => exact .inr ⟨rfl, rfl⟩

/-- An answered instruction made the halt entry the table gives it, or completed. -/
theorem exec_next_cases {i : Instr} {s t : State} (h : exec i s = .next t) :
    (∃ c : HaltCause, haltTable s i = some c.code ∧ t = s.halt c) ∨ (haltTable s i = none ∧ t = s.completed i) := by
  rcases exec_cases i s with ⟨c, hc, he⟩ | ⟨hc, he⟩
  · cases he.symm.trans h
    exact .inl ⟨c, hc, rfl⟩
  · cases he.symm.trans h
    exact .inr ⟨hc, rfl⟩

/-- The codes of R175 tell the causes apart. -/
theorem HaltCause.code_injective {c c' : HaltCause} (h : c.code = c'.code) : c = c' := by
  revert h
  cases c <;> cases c' <;> decide

/-- An instruction for which a halt is tabled makes that halt entry. -/
theorem exec_of_haltTable_some {i : Instr} {s : State} {c : HaltCause} (h : haltTable s i = some c.code) :
    exec i s = .next (s.halt c) := by
  rcases exec_cases i s with ⟨c', hc, he⟩ | ⟨hn, -⟩
  · rwa [HaltCause.code_injective (Option.some.inj (hc.symm.trans h))] at he
  · cases hn.symm.trans h

/-- An instruction for which no halt is tabled completes. -/
theorem exec_of_haltTable_none {i : Instr} {s : State} (h : haltTable s i = none) :
    exec i s = .next (s.completed i) := by
  rcases exec_cases i s with ⟨c, hc, -⟩ | ⟨-, he⟩
  · cases hc.symm.trans h
  · exact he

/-- Completing writes the state of the program alone: neither RUN, the halt registers, nor anything outside it. -/
theorem State.completed_eq (s : State) (i : Instr) : s.completed i =
    { s with
      v := (s.completed i).v, i := (s.completed i).i, pc := (s.completed i).pc, stack := (s.completed i).stack,
      sp := (s.completed i).sp, dt := (s.completed i).dt, st := (s.completed i).st, ram := (s.completed i).ram,
      vram := (s.completed i).vram } := by
  cases i <;> rfl

@[simp] theorem State.completed_run (s : State) (i : Instr) : (s.completed i).run = s.run := by
  rw [State.completed_eq]

@[simp] theorem State.completed_haltReason (s : State) (i : Instr) : (s.completed i).haltReason = s.haltReason := by
  rw [State.completed_eq]

@[simp] theorem State.completed_present (s : State) (i : Instr) : (s.completed i).present = s.present := by
  rw [State.completed_eq]

@[simp] theorem State.completed_frame (s : State) (i : Instr) : (s.completed i).frame = s.frame := by
  rw [State.completed_eq]

/-! ## PC -/

/-- Completing sets PC by the class of the instruction (R15). -/
theorem State.completed_pc_toNat (s : State) (i : Instr) : (s.completed i).pc.toNat = pcTable s i % 65536 := by
  cases i with
  | jmp nnn | jsr nnn => exact BitVec.toNat_setWidth ..
  | jmi nnn =>
    have h := s.indexedTarget_toNat nnn
    exact (Nat.mod_eq_of_lt (s.indexedTarget nnn).isLt).symm.trans (congrArg (· % 65536) h)
  | rts => exact (Nat.mod_eq_of_lt (s.stack[(s.sp - 1#4).toNat]'(s.sp - 1#4).isLt).isLt).symm
  | skeqImm x kk | skneImm x kk | skeqReg x y | skneReg x y =>
    simp only [State.completed, State.setPc_pc, pcTable, beq_iff_eq, bne_iff_ne]
    split <;> exact BitVec.toNat_add ..
  | cls | movImm | addImm | movReg | orReg | andReg | xorReg | addReg | subReg | shr | rsb | shl | mvi | rand | sprite
  | skpr | skup | gdelay | key | sdelay | ssound | adi | font | bcd | str | ldr => exact BitVec.toNat_add ..

/-- Settles O26: the halt entry leaves PC, and completing follows the table of classes. -/
theorem pcFollowsItsInstructionClass : Obligations.PcFollowsItsInstructionClass := by
  intro i s t h
  rcases exec_next_cases h with ⟨c, hc, rfl⟩ | ⟨hc, rfl⟩
  · exact ⟨fun hn => by simp [hn] at hc, fun _ => rfl⟩
  · exact ⟨fun _ => s.completed_pc_toNat i, fun hn => absurd hc hn⟩

/-! ## The stack -/

/-- Only the slot SP points at can change (R22, R83). -/
theorem State.completed_stack_getElem (s : State) (i : Instr) {k : Nat} (hk : k < 16) (hne : k ≠ s.sp.toNat) :
    (s.completed i).stack[k] = s.stack[k] := by
  cases i with
  | jsr nnn => exact Vector.getElem_set_ne s.sp.isLt hk (Ne.symm hne)
  | _ => rfl

/-- A push that would need slot 15 is tabled as a halt, so no completion writes it (R22). -/
theorem State.completed_topSlot {s : State} {i : Instr} (h : haltTable s i = none) :
    (s.completed i).stack[15] = s.stack[15] := by
  cases i with
  | jsr nnn =>
    have hsp : s.sp ≠ 15#4 := fun e => by simp [haltTable, e] at h
    exact s.completed_stack_getElem (.jsr nnn) (by decide) fun e => hsp (BitVec.eq_of_toNat_eq e.symm)
  | _ => rfl

/-- Settles O29: a halt leaves the stack, and a completion writes at most the slot SP points at, never the top one. -/
theorem theTopStackSlotIsNeverWritten : Obligations.TheTopStackSlotIsNeverWritten := by
  intro i s t h
  rcases exec_next_cases h with ⟨c, -, rfl⟩ | ⟨hc, rfl⟩
  · exact ⟨rfl, fun _ _ _ => rfl⟩
  · exact ⟨State.completed_topSlot hc, fun _ hk hne => s.completed_stack_getElem i hk hne⟩

/-! ## The writers of each piece of state -/

section Writers

variable {s : State} {i : Instr}

/-- The writers of I (R20). -/
theorem State.i_writers (h : (s.completed i).i ≠ s.i) :
    (∃ nnn, i = .mvi nnn) ∨ (∃ x, i = .adi x) ∨ ∃ x, i = .font x := by
  cases i with
  | mvi nnn => exact .inl ⟨nnn, rfl⟩
  | adi x => exact .inr (.inl ⟨x, rfl⟩)
  | font x => exact .inr (.inr ⟨x, rfl⟩)
  | _ => exact absurd rfl h

/-- The writers of SP (R21). -/
theorem State.sp_writers (h : (s.completed i).sp ≠ s.sp) : i = .rts ∨ ∃ nnn, i = .jsr nnn := by
  cases i with
  | rts => exact .inl rfl
  | jsr nnn => exact .inr ⟨nnn, rfl⟩
  | _ => exact absurd rfl h

/-- The writer of STACK (R21). -/
theorem State.stack_writer (h : (s.completed i).stack ≠ s.stack) : ∃ nnn, i = .jsr nnn := by
  cases i with
  | jsr nnn => exact ⟨nnn, rfl⟩
  | _ => exact absurd rfl h

/-- The writer of DT (R24). -/
theorem State.dt_writer (h : (s.completed i).dt ≠ s.dt) : ∃ x, i = .sdelay x := by
  cases i with
  | sdelay x => exact ⟨x, rfl⟩
  | _ => exact absurd rfl h

/-- The writer of ST (R24). -/
theorem State.st_writer (h : (s.completed i).st ≠ s.st) : ∃ x, i = .ssound x := by
  cases i with
  | ssound x => exact ⟨x, rfl⟩
  | _ => exact absurd rfl h

/-- The writers of RAM (R49). -/
theorem State.ram_writers (h : (s.completed i).ram ≠ s.ram) : (∃ x, i = .bcd x) ∨ ∃ x, i = .str x := by
  cases i with
  | bcd x => exact .inl ⟨x, rfl⟩
  | str x => exact .inr ⟨x, rfl⟩
  | _ => exact absurd rfl h

/-- The writers of VRAM (R30). -/
theorem State.vram_writers (h : (s.completed i).vram ≠ s.vram) : i = .cls ∨ ∃ x y n, i = .sprite x y n := by
  cases i with
  | cls => exact .inl rfl
  | sprite x y n => exact .inr ⟨x, y, n, rfl⟩
  | _ => exact absurd rfl h

end Writers

/-- Settles O27: a halt writes none of these, a completion each at its writers; the rest is the frame of every
instruction. -/
theorem eachPieceOfStateHasOnlyItsWriters : Obligations.EachPieceOfStateHasOnlyItsWriters := by
  intro i s t h
  have hframe : ExecFrame s t := exec_execFrame h
  have hrest : t.opcode = s.opcode ∧ t.gate = s.gate ∧ t.attached = s.attached ∧ t.present = s.present ∧
      t.frame = s.frame ∧ t.setupError = s.setupError ∧ t.params = s.params ∧ t.rnd = s.rnd ∧
      t.inputs = s.inputs ∧ t.inputNo = s.inputNo := by
    rw [hframe]
    exact ⟨rfl, rfl, rfl, rfl, rfl, rfl, rfl, rfl, rfl, rfl⟩
  rcases exec_next_cases h with ⟨c, -, rfl⟩ | ⟨-, rfl⟩
  · exact ⟨absurd rfl, absurd rfl, absurd rfl, absurd rfl, absurd rfl, fun ⟨_, hb⟩ => absurd rfl hb,
      fun ⟨_, hb⟩ => absurd rfl hb, hrest⟩
  · exact ⟨State.i_writers, State.sp_writers, State.stack_writer, State.dt_writer, State.st_writer,
      fun ⟨a, hb⟩ => State.ram_writers fun e => hb (State.ramByte_congr e a),
      fun ⟨k, hb⟩ => State.vram_writers fun e => hb (congrArg (·.vramByte k) e), hrest⟩

/-! ## The general registers -/

theorem State.setReg_advance_regsSameBut (s : State) (x : Nibble) (b : Byte) :
    RegsSameBut [x] s (s.setReg x b).advance :=
  fun _ hr => s.reg_setReg_of_ne b (List.ne_of_not_mem_cons hr)

theorem State.writeFlagged_advance_regsSameBut (s : State) (x : Nibble) (f b : Byte) :
    RegsSameBut [x, vf] s (s.writeFlagged x f b).advance := by
  intro r hr
  simp only [List.mem_cons, List.not_mem_nil, or_false, not_or] at hr
  exact s.reg_writeFlagged_of_ne f b hr.1 hr.2

/-- Completing changes a general register only where the instruction names it (R11, R12). -/
theorem State.completed_regsSameBut (s : State) (i : Instr) : RegsSameBut (destRegs i) s (s.completed i) := by
  cases i with
  | movImm | addImm | movReg | orReg | andReg | xorReg | rand | gdelay => exact s.setReg_advance_regsSameBut _ _
  | addReg | subReg | shr | rsb | shl => exact s.writeFlagged_advance_regsSameBut _ _ _
  | sprite x y n => exact State.setReg_advance_regsSameBut { s with vram := _ } vf _
  | ldr x =>
    intro r hr
    have hx : ¬r.toNat < x.toNat + 1 := fun hlt =>
      hr (List.mem_map.2 ⟨r.toNat, List.mem_range.2 hlt, (BitVec.ofNat_toNat 4 r).trans (BitVec.setWidth_eq r)⟩)
    have hload := s.reg_loadBlock s.blockBase (x.toNat + 1) r (by have := x.isLt; omega)
    rwa [if_neg hx] at hload
  | cls | rts | jmp | jsr | skeqImm | skneImm | skeqReg | skneReg | mvi | jmi | skpr | skup | key | sdelay | ssound
  | adi | font | bcd | str => exact fun _ _ => rfl

/-- The byte is a flag: 0 or 1 (R19). -/
def IsFlag (b : Byte) : Prop := b = 0x00#8 ∨ b = 0x01#8

theorem isFlag_flagByte (set : Bool) : IsFlag (flagByte set) := by
  cases set
  · exact .inl rfl
  · exact .inr rfl

theorem isFlag_of_toNat_le_one {b : Byte} (h : b.toNat ≤ 1) : IsFlag b := by
  rcases Nat.le_one_iff_eq_zero_or_eq_one.1 h with h | h
  · exact .inl (BitVec.eq_of_toNat_eq h)
  · exact .inr (BitVec.eq_of_toNat_eq h)

theorem isFlag_lowBitFlag (a : Byte) : IsFlag (lowBitFlag a) :=
  isFlag_of_toNat_le_one (by rw [lowBitFlag_toNat]; omega)

theorem isFlag_highBitFlag (a : Byte) : IsFlag (highBitFlag a) :=
  isFlag_of_toNat_le_one (by rw [highBitFlag_toNat]; have := a.isLt; omega)

/-- With X not F, VF keeps the flag the ALU instruction wrote first (R105). -/
theorem State.isFlag_writeFlagged_advance (s : State) {x : Nibble} {f : Byte} (b : Byte) (hx : x ≠ vf)
    (hf : IsFlag f) : IsFlag ((s.writeFlagged x f b).advance.reg vf) := by
  rw [State.reg_advance, s.reg_writeFlagged_flag f b hx]
  exact hf

/-- VF is written last by SPRITE (R128). -/
theorem State.reg_vf_completed_sprite (s : State) (x y n : Nibble) : (s.completed (.sprite x y n)).reg vf =
    flagByte (s.drawSprite (s.reg x).toNat (s.reg y).toNat n.toNat).2 :=
  State.reg_setReg_self ..

/-- Settles O28: a halt leaves the registers; a completion writes the destinations, and its flags are 0 or 1. -/
theorem generalRegistersChangeOnlyAtDestinations : Obligations.GeneralRegistersChangeOnlyAtDestinations := by
  intro i s t h
  refine ⟨?_, ?_, ?_⟩
  · rcases exec_next_cases h with ⟨c, -, rfl⟩ | ⟨-, rfl⟩
    · exact fun _ _ => rfl
    · exact s.completed_regsSameBut i
  · rintro x y hx (rfl | rfl | rfl | rfl | rfl) <;> cases h
    · exact s.isFlag_writeFlagged_advance _ hx (isFlag_flagByte _)
    · exact s.isFlag_writeFlagged_advance _ hx (isFlag_flagByte _)
    · exact s.isFlag_writeFlagged_advance _ hx (isFlag_lowBitFlag _)
    · exact s.isFlag_writeFlagged_advance _ hx (isFlag_flagByte _)
    · exact s.isFlag_writeFlagged_advance _ hx (isFlag_highBitFlag _)
  · rintro x y n rfl hn
    cases (exec_of_haltTable_none hn).symm.trans h
    rw [State.reg_vf_completed_sprite]
    exact isFlag_flagByte _

/-! ## Transfers read their operands alone -/

theorem State.setRamByte_ram_congr {s t : State} (h : t.ram = s.ram) (a : Nat) (b : Byte) :
    (t.setRamByte a b).ram = (s.setRamByte a b).ram := by
  unfold State.setRamByte
  split
  · exact congrArg (·.write ramUnlisted a b) h
  · exact h

theorem State.setRamBytes_ram_congr (bs : List Byte) : ∀ {s t : State} (a : Nat), t.ram = s.ram →
    (t.setRamBytes a bs).ram = (s.setRamBytes a bs).ram := by
  induction bs with
  | nil => exact fun _ h => h
  | cons b bs ih => exact fun a h => ih (a + 1) (State.setRamByte_ram_congr h a b)

/-- What a block store leaves in RAM depends on RAM and the register file alone. -/
theorem State.storeBlock_ram_congr {s t : State} (hram : t.ram = s.ram) (hv : t.v = s.v) (base count : Nat) :
    (t.storeBlock base count).ram = (s.storeBlock base count).ram := by
  induction count with
  | zero => exact hram
  | succ count ih =>
    rw [State.storeBlock_succ, State.storeBlock_succ, State.reg_congr hv]
    exact State.setRamByte_ram_congr ih ..

/-- What a block load leaves in the registers depends on RAM and the register file alone. -/
theorem State.loadBlock_v_congr {s t : State} (hram : t.ram = s.ram) (hv : t.v = s.v) (base count : Nat) :
    (t.loadBlock base count).v = (s.loadBlock base count).v := by
  induction count with
  | zero => exact hv
  | succ count ih =>
    rw [State.loadBlock_succ, State.loadBlock_succ, State.ramByte_congr hram, State.setReg_v, State.setReg_v, ih]

section Unread

variable (s : State) (st rnd : Byte) (x : Nibble)

theorem State.completed_bcd_unread : State.completed { s with st := st, rnd := rnd } (.bcd x) =
    { s.completed (.bcd x) with st := st, rnd := rnd } :=
  congrArg (fun m => State.advance { s with st := st, rnd := rnd, ram := m })
    (State.setRamBytes_ram_congr (s := s) (t := { s with st := st, rnd := rnd }) _ (s.dataAddr 0) rfl)

theorem State.completed_str_unread : State.completed { s with st := st, rnd := rnd } (.str x) =
    { s.completed (.str x) with st := st, rnd := rnd } :=
  congrArg (fun m => State.advance { s with st := st, rnd := rnd, ram := m })
    (State.storeBlock_ram_congr (s := s) (t := { s with st := st, rnd := rnd }) rfl rfl s.blockBase _)

theorem State.completed_ldr_unread : State.completed { s with st := st, rnd := rnd } (.ldr x) =
    { s.completed (.ldr x) with st := st, rnd := rnd } :=
  congrArg (fun v => State.advance { s with st := st, rnd := rnd, v := v })
    (State.loadBlock_v_congr (s := s) (t := { s with st := st, rnd := rnd }) rfl rfl s.blockBase _)

end Unread

/-- ST is not read: completing with another ST is completing, with that ST (R24). -/
theorem State.completed_withSt (s : State) (b : Byte) {i : Instr} (h : ∀ x, i ≠ .ssound x) :
    State.completed { s with st := b } i = { s.completed i with st := b } := by
  cases i with
  | ssound x => exact absurd rfl (h x)
  | bcd x => exact s.completed_bcd_unread b s.rnd x
  | str x => exact s.completed_str_unread b s.rnd x
  | ldr x => exact s.completed_ldr_unread b s.rnd x
  | _ => rfl

/-- The random byte is read by RAND alone: completing with another one is completing, with that byte (R122). -/
theorem State.completed_withRnd (s : State) (b : Byte) {i : Instr} (h : ∀ x kk, i ≠ .rand x kk) :
    State.completed { s with rnd := b } i = { s.completed i with rnd := b } := by
  cases i with
  | rand x kk => exact absurd rfl (h x kk)
  | bcd x => exact s.completed_bcd_unread s.st b x
  | str x => exact s.completed_str_unread s.st b x
  | ldr x => exact s.completed_ldr_unread s.st b x
  | _ => rfl

theorem haltTable_withSt (s : State) (b : Byte) (i : Instr) : haltTable { s with st := b } i = haltTable s i := by
  cases i <;> rfl

theorem haltTable_withRnd (s : State) (b : Byte) (i : Instr) : haltTable { s with rnd := b } i = haltTable s i := by
  cases i <;> rfl

/-- An update that the table of causes, halt entry and completion all pass over is passed over by the instruction. -/
theorem exec_update {f : State → State} {i : Instr} {s : State} (htable : haltTable (f s) i = haltTable s i)
    (hhalt : ∀ c, (f s).halt c = f (s.halt c)) (hdone : (f s).completed i = f (s.completed i)) :
    exec i (f s) = mapNext f (exec i s) := by
  rcases exec_cases i s with ⟨c, hc, he⟩ | ⟨hn, he⟩
  · rw [exec_of_haltTable_some (htable.trans hc), he, mapNext, hhalt]
  · rw [exec_of_haltTable_none (htable.trans hn), he, mapNext, hdone]

/-- Settles O30: neither the table of causes nor halt entry reads ST or the random byte, and completion only at the
instruction set apart. -/
theorem soundTimerAndRandomByteAreNotReadElsewhere : Obligations.SoundTimerAndRandomByteAreNotReadElsewhere :=
  ⟨fun i s b h => exec_update (f := fun t => { t with st := b }) (haltTable_withSt s b i) (fun _ => rfl)
      (s.completed_withSt b h),
    fun i s b h => exec_update (f := fun t => { t with rnd := b }) (haltTable_withRnd s b i) (fun _ => rfl)
      (s.completed_withRnd b h)⟩

/-! ## The framebuffer under a sprite -/

theorem pixelByte_cases (lit : Bool) : pixelByte lit = 0x00#8 ∨ pixelByte lit = 0xFF#8 := by
  cases lit
  · exact .inl rfl
  · exact .inr rfl

theorem Memory.monochrome_nil : Memory.monochrome [] := fun _ _ _ _ => ⟨0x00#8, .inl rfl, fun _ _ => rfl⟩

/-- In a monochrome framebuffer a pixel's bytes say no more than whether it is lit (R31, R48). -/
theorem Memory.vramByte_of_monochrome {m : Memory} (h : m.monochrome) {px py c : Nat} (hx : px < 64) (hy : py < 32)
    (hc : c < 3) : m.vramByte (pixOffset px py + c) = pixelByte (m.pixRead px py) := by
  obtain ⟨b, hb, hbytes⟩ := h px py hx hy
  have hread : m.pixRead px py = (b != 0x00#8) := congrArg (· != 0x00#8) (hbytes 0 (by decide))
  rw [hread, pixOffset_eq, hbytes c hc]
  rcases hb with rfl | rfl <;> rfl

/-- Every byte of VRAM is one of the three of a pixel of the grid (R47). -/
theorem exists_pixOffset_add {k : Nat} (hk : k < 6144) :
    ∃ px py c, px < 64 ∧ py < 32 ∧ c < 3 ∧ k = pixOffset px py + c := by
  refine ⟨k / 3 % 64, k / 192, k % 3, by omega, by omega, by omega, ?_⟩
  rw [pixOffset_eq]
  omega

section Walk

variable {ps : List (Nat × Nat)} (hnd : ps.Nodup) (hg : ∀ p ∈ ps, p.1 < 64 ∧ p.2 < 32)
include hnd hg

/-- A walk over different pixels of the grid keeps the framebuffer monochrome. -/
theorem monochrome_flipPixels {acc : Memory × Bool} (h : acc.1.monochrome) :
    (ps.foldl flipPixel acc).1.monochrome := by
  intro px py hx hy
  have hbyte : ∀ c, c < 3 → _ := fun c hc => vramByte_flipPixels ps acc hnd (fun p hp => (hg p hp).1) px py c hx hc
  by_cases hm : (px, py) ∈ ps
  · exact ⟨_, pixelByte_cases _, fun c hc => (hbyte c hc).trans (if_pos hm)⟩
  · obtain ⟨b, hb, hbytes⟩ := h px py hx hy
    exact ⟨b, hb, fun c hc => ((hbyte c hc).trans (if_neg hm)).trans (hbytes c hc)⟩

/-- A pixel on the walk is lit after it exactly when it was not lit before. -/
theorem pixRead_flipPixels_of_mem {acc : Memory × Bool} {px py : Nat} (hm : (px, py) ∈ ps) :
    (ps.foldl flipPixel acc).1.pixRead px py = !acc.1.pixRead px py := by
  have hbyte := vramByte_flipPixels ps acc hnd (fun p hp => (hg p hp).1) px py 0 (hg _ hm).1 (by decide)
  rw [if_pos hm, Nat.add_zero] at hbyte
  rw [Memory.pixRead, hbyte, pixelByte_ne_zero]

/-- Two walks over the same pixels restore every byte of a monochrome framebuffer (R129). -/
theorem vramByte_flipPixels_twice {m : Memory} (h : m.monochrome) (b b' : Bool) (k : Nat) :
    (ps.foldl flipPixel ((ps.foldl flipPixel (m, b)).1, b')).1.vramByte k = m.vramByte k := by
  rcases Nat.lt_or_ge k 6144 with hk | hk
  · obtain ⟨px, py, c, hx, hy, hc, rfl⟩ := exists_pixOffset_add hk
    have hcol : ∀ p ∈ ps, p.1 < 64 := fun p hp => (hg p hp).1
    rw [vramByte_flipPixels ps _ hnd hcol px py c hx hc]
    by_cases hm : (px, py) ∈ ps
    · rw [if_pos hm, pixRead_flipPixels_of_mem hnd hg hm, Bool.not_not, Memory.vramByte_of_monochrome h hx hy hc]
    · rw [if_neg hm, vramByte_flipPixels ps _ hnd hcol px py c hx hc, if_neg hm]
  · rw [vramByte_flipPixels_beyond ps _ hg k hk, vramByte_flipPixels_beyond ps _ hg k hk]

end Walk

/-- No halt is tabled for a sprite exactly when it fits (R127). -/
theorem haltTable_sprite_eq_none_iff (s : State) (x y n : Nibble) :
    haltTable s (.sprite x y n) = none ↔ SpriteFits s (s.reg x).toNat (s.reg y).toNat n.toNat := by
  have hrows : ¬(n.toNat ≥ 1 ∧ s.i.toNat + n.toNat - 1 > 0xFFF) ↔ (n.toNat ≥ 1 → s.i.toNat + n.toNat - 1 ≤ 0xFFF) := by
    omega
  rw [haltTable, SpriteFits, ← hrows]
  split
  · rename_i hout
    exact ⟨nofun, fun h => absurd hout h.1⟩
  · rename_i hin
    rw [ite_eq_right_iff]
    exact ⟨fun h => ⟨hin, not_not.1 fun hgrid => nomatch h hgrid⟩, fun h hgrid => absurd h.2 hgrid⟩

/-- The pixels of the sprite an instruction draws. -/
def State.pixelsOf (s : State) (x y n : Nibble) : List (Nat × Nat) :=
  s.spritePixels (s.reg x).toNat (s.reg y).toNat n.toNat

theorem State.pixelsOf_nodup (s : State) (x y n : Nibble) : (s.pixelsOf x y n).Nodup :=
  s.spritePixels_nodup _ _ (by have := n.isLt; omega)

theorem State.pixelsOf_inGrid {s : State} {x y n : Nibble} (h : haltTable s (.sprite x y n) = none) :
    ∀ p ∈ s.pixelsOf x y n, p.1 < 64 ∧ p.2 < 32 :=
  State.spritePixels_inGrid ((spriteInGrid_iff_claim s _ _ _).2 ((haltTable_sprite_eq_none_iff s x y n).1 h).2)

/-- The framebuffer of a completed SPRITE is the walk over its pixels. -/
theorem State.completed_sprite_vram (s : State) (x y n : Nibble) :
    (s.completed (.sprite x y n)).vram = ((s.pixelsOf x y n).foldl flipPixel (s.vram, false)).1 :=
  congrArg Prod.fst (s.drawSprite_eq ..)

theorem State.mem_pixelsOf_iff (s : State) (x y n : Nibble) (px py : Nat) :
    (px, py) ∈ s.pixelsOf x y n ↔ SpriteCovers s (s.reg x).toNat (s.reg y).toNat n.toNat px py := by
  simp only [State.pixelsOf, State.mem_spritePixels, wrapX_eq_wrapped, wrapY_eq_wrapped, SpriteCovers, State.dataAddr]

theorem pixelLit_iff (s : State) (px py : Nat) : PixelLit s px py ↔ s.vram.pixRead px py = true :=
  bne_iff_ne.symm

/-- A completed SPRITE sets VF exactly when a pixel it covers was lit before it (R125, R128). -/
theorem State.reg_vf_completed_sprite_iff {s : State} {x y n : Nibble} (h : haltTable s (.sprite x y n) = none) :
    (s.completed (.sprite x y n)).reg vf = 0x01#8 ↔ ∃ p ∈ s.pixelsOf x y n, PixelLit s p.1 p.2 := by
  have hflag : ∀ b, flagByte b = 0x01#8 ↔ b = true := by decide
  rw [State.reg_vf_completed_sprite, hflag, State.drawSprite_eq]
  have hcol : ∀ p ∈ s.pixelsOf x y n, p.1 < 64 := fun p hp => (s.pixelsOf_inGrid h p hp).1
  refine (collision_flipPixels _ (s.vram, false) (s.pixelsOf_nodup x y n) hcol).trans ?_
  simp only [Bool.false_eq_true, false_or, pixelLit_iff]

/-- With X and Y not F, the same SPRITE covers the same pixels once it has been drawn. -/
theorem State.pixelsOf_completed_sprite (s : State) {x y : Nibble} (n : Nibble) (hx : x ≠ vf) (hy : y ≠ vf) :
    (s.completed (.sprite x y n)).pixelsOf x y n = s.pixelsOf x y n := by
  have hregs := s.completed_regsSameBut (.sprite x y n)
  rw [State.pixelsOf, hregs x (by simpa [destRegs] using hx), hregs y (by simpa [destRegs] using hy)]
  rfl

/-- With X and Y not F, a SPRITE that fits still fits once it has been drawn. -/
theorem haltTable_sprite_completed_sprite {s : State} {x y n : Nibble} (hx : x ≠ vf) (hy : y ≠ vf)
    (h : haltTable s (.sprite x y n) = none) : haltTable (s.completed (.sprite x y n)) (.sprite x y n) = none := by
  have hregs := s.completed_regsSameBut (.sprite x y n)
  rw [haltTable_sprite_eq_none_iff] at h ⊢
  rw [hregs x (by simpa [destRegs] using hx), hregs y (by simpa [destRegs] using hy)]
  exact h

/-- Settles O50: the second draw walks over the same pixels, and two walks restore a monochrome framebuffer. -/
theorem spriteDrawnTwiceRestoresTheScreen : Obligations.SpriteDrawnTwiceRestoresTheScreen := by
  intro s t x y n hmono hx hy hfits h
  have hs := (haltTable_sprite_eq_none_iff s x y n).2 hfits
  cases (exec_of_haltTable_none hs).symm.trans h
  have ht := haltTable_sprite_completed_sprite hx hy hs
  have hps := s.pixelsOf_completed_sprite n hx hy
  refine ⟨_, exec_of_haltTable_none ht, fun k => ?_, ?_⟩
  · rw [State.vramByte, State.completed_sprite_vram, hps, State.completed_sprite_vram]
    exact vramByte_flipPixels_twice (s.pixelsOf_nodup x y n) (s.pixelsOf_inGrid hs) hmono false false k
  · rw [State.reg_vf_completed_sprite_iff ht, hps, Prod.exists]
    simp only [State.mem_pixelsOf_iff]

/-- Completing keeps the framebuffer monochrome (R31). -/
theorem State.completed_monochrome {s : State} {i : Instr} (hn : haltTable s i = none) (h : s.monochrome) :
    (s.completed i).monochrome := by
  cases i with
  | cls => exact Memory.monochrome_nil
  | sprite x y n =>
    rw [State.monochrome, State.completed_sprite_vram]
    exact monochrome_flipPixels (s.pixelsOf_nodup x y n) (s.pixelsOf_inGrid hn) h
  | _ => exact h

/-- Settles O24: reset clears VRAM, a halt leaves it, and completing keeps it monochrome. -/
theorem framebufferStaysMonochrome : Obligations.FramebufferStaysMonochrome := by
  refine ⟨Memory.monochrome_nil, fun _ => Memory.monochrome_nil, fun i s t hmono h => ?_⟩
  rcases exec_next_cases h with ⟨c, -, rfl⟩ | ⟨hn, rfl⟩
  · exact hmono
  · exact State.completed_monochrome hn hmono

/-! ## From power-on to a running program -/

/-- The state once its oldest input has been taken and `rest` is left: the strobes are low, no frame is presented. -/
def State.taken (s : State) (rest : List HostInput) : State :=
  { s with inputs := rest, present := false, frame := none, setupError := false }

section OneInput

variable {s : State} {rest : List HostInput}

/-- A step receives the oldest input the state fixes. -/
theorem step_of_inputs {inp : HostInput} (h : s.inputs = inp :: rest) : step s = (s.taken rest).receive inp := by
  have hinp : s.input = inp := by rw [State.input, h]
  have htaken : s.inputTaken = s.taken rest := by rw [State.inputTaken, h]; rfl
  rw [step, hinp, htaken]

theorem step_attach {p : Port} (h : s.inputs = .attach p :: rest) (hr : s.run = false) :
    step s = .next { s.taken rest with attached := s.attached.add p } :=
  (step_of_inputs h).trans (State.whileStopped_of_stopped (s := s.taken rest) _ hr)

theorem step_load {font program : List Byte} (h : s.inputs = .load font program :: rest) (hr : s.run = false)
    (hl : launchWellFormed font program = true) : step s = .next ((s.taken rest).load font program) :=
  (step_of_inputs h).trans ((State.whileStopped_of_stopped (s := s.taken rest) _ hr).trans (if_pos hl))

theorem step_runRequest (h : s.inputs = .runRequest :: rest) (hr : s.run = false) (ha : s.attached.all = true) :
    step s = .next { (s.taken rest).resetCore with run := true } := by
  rw [step_of_inputs h, State.receive]
  rcases (s.taken rest).runRequest_cases with ⟨hrun, -⟩ | ⟨-, -, he⟩ | ⟨-, hall, -⟩
  · exact absurd (hr.symm.trans hrun) (by decide)
  · rw [he]
  · exact absurd (ha.symm.trans hall) (by decide)

end OneInput

/-- The reset values say nothing of RUN, so a Run request leaves them (R157). -/
theorem State.resetCore_withRun_atReset (s : State) : State.atReset { s.resetCore with run := true } :=
  s.resetCore_atReset

@[simp] theorem State.load_run (s : State) (font program : List Byte) : (s.load font program).run = s.run := by
  rw [State.load_eq]

@[simp] theorem State.load_inputs (s : State) (font program : List Byte) :
    (s.load font program).inputs = s.inputs := by
  rw [State.load_eq]

@[simp] theorem State.load_attached (s : State) (font program : List Byte) :
    (s.load font program).attached = s.attached := by
  rw [State.load_eq]

/-- Settles O8: three attaches, a load and a Run request, each one step; the load alone has written RAM. -/
theorem powerOnIsStoppedUntilAttachedLoadedAndRun : Obligations.PowerOnIsStoppedUntilAttachedLoadedAndRun := by
  intro before
  refine ⟨rfl, rfl, rfl, ⟨rfl, rfl, rfl⟩, fun a b c font program rest hports hfont hprogram => ?_⟩
  have hl := (launchWellFormed_iff font program).2 ⟨hfont, hprogram⟩
  have hall := Attached.add_three hports ⟨false, false, false⟩
  refine ⟨_, _, _, _, _, step_attach rfl rfl, step_attach rfl rfl, step_attach rfl rfl, step_load rfl rfl hl,
    step_runRequest ?_ ?_ ?_, ?_, rfl, ?_, rfl, ?_, ?_, ?_⟩
  · exact State.load_inputs ..
  · exact State.load_run ..
  · rw [State.load_attached]
    exact congrArg Attached.all hall
  · exact State.resetCore_withRun_atReset _
  · exact (State.load_attached ..).trans hall
  · intro k hk
    exact (State.ramByte_load _ hl k).trans ((dif_neg (by omega)).trans (dif_pos hk))
  · intro k hk
    refine (State.ramByte_load _ hl _).trans ((dif_pos ⟨by omega, by omega⟩).trans ?_)
    simp only [Nat.add_sub_cancel_left]
  · intro k hlow hprog
    exact (State.ramByte_load _ hl k).trans ((dif_neg hprog).trans (dif_neg (by omega)))

/-! ## The invariant -/

/-- Completing keeps the canonical form of RAM. -/
theorem State.completed_ram_wf {s : State} (i : Instr) (h : Memory.wf Config.ramSize ramUnlisted s.ram) :
    Memory.wf Config.ramSize ramUnlisted (s.completed i).ram := by
  cases i with
  | bcd x => exact State.setRamBytes_wf _ s _ h
  | str x => exact s.storeBlock_wf _ _ h
  | _ => exact h

/-- Completing keeps the canonical form of VRAM. -/
theorem State.completed_vram_wf {s : State} {i : Instr} (hn : haltTable s i = none)
    (h : Memory.wf Config.vramSize vramUnlisted s.vram) :
    Memory.wf Config.vramSize vramUnlisted (s.completed i).vram := by
  cases i with
  | cls => exact Memory.wf_nil ..
  | sprite x y n =>
    rw [State.completed_sprite_vram]
    exact wf_flipPixels _ _ (s.pixelsOf_inGrid hn) h
  | _ => exact h

/-- PC after an instruction fetched from RAM, with return addresses at most 0x1000: JMI goes highest (R17). -/
theorem pcTable_le {s : State} (hpc : s.pc.toNat ≤ 0xFFE) (hstack : ∀ k (h : k < 16), (s.stack[k]'h).toNat ≤ 0x1000)
    (i : Instr) : pcTable s i ≤ 0x10FE := by
  cases i with
  | jmp nnn | jsr nnn => have := nnn.isLt; simp only [pcTable]; omega
  | jmi nnn => have := nnn.isLt; have := (s.reg 0x0#4).isLt; simp only [pcTable]; omega
  | rts => exact (hstack _ (s.sp - 1#4).isLt).trans (by decide)
  | skeqImm | skneImm | skeqReg | skneReg => simp only [pcTable]; split <;> omega
  | cls | movImm | addImm | movReg | orReg | andReg | xorReg | addReg | subReg | shr | rsb | shl | mvi | rand | sprite
  | skpr | skup | gdelay | key | sdelay | ssound | adi | font | bcd | str | ldr => simp only [pcTable]; omega

/-- A return address pushed by an instruction fetched from RAM is at most 0x1000 (R83). -/
theorem State.completed_stack_le {s : State} (hpc : s.pc.toNat ≤ 0xFFE)
    (hstack : ∀ k (h : k < 16), (s.stack[k]'h).toNat ≤ 0x1000) (i : Instr) (k : Nat) (hk : k < 16) :
    ((s.completed i).stack[k]'hk).toNat ≤ 0x1000 := by
  cases i with
  | jsr nnn =>
    simp only [State.completed, Vector.getElem_set]
    split
    · simp only [BitVec.toNat_add, BitVec.toNat_ofNat]; omega
    · exact hstack k hk
  | _ => exact hstack k hk

theorem HaltCause.code_toNat_le (c : HaltCause) : c.code.toNat ≤ 5 := by cases c <;> decide

namespace State.Inv

variable {s t : State}

protected theorem halt (h : s.Inv) (c : HaltCause) : (s.halt c).Inv :=
  { h with haltCode := c.code_toNat_le, haltStops := fun _ => rfl }

/-- Completing keeps the invariant when the instruction was fetched from RAM. -/
protected theorem completed (h : s.Inv) (hpc : s.pc.toNat ≤ 0xFFE) {i : Instr} (hn : haltTable s i = none) :
    (s.completed i).Inv where
  ramForm := State.completed_ram_wf i h.ramForm
  vramForm := State.completed_vram_wf hn h.vramForm
  mono := State.completed_monochrome hn h.mono
  frameStrobe := by simpa using h.frameStrobe
  frameForm := by simpa using h.frameForm
  haltCode := by simpa using h.haltCode
  haltStops := by simpa using h.haltStops
  pcBound := by
    rw [State.completed_pc_toNat]
    exact (Nat.mod_le _ _).trans (pcTable_le hpc h.stackBound i)
  stackBound := State.completed_stack_le hpc h.stackBound i
  topSlot := (State.completed_topSlot hn).trans h.topSlot

/-- An instruction fetched from RAM keeps the invariant, halting or not. -/
protected theorem exec (h : s.Inv) (hpc : s.pc.toNat ≤ 0xFFE) {i : Instr} (he : exec i s = .next t) : t.Inv := by
  rcases exec_next_cases he with ⟨c, -, rfl⟩ | ⟨hn, rfl⟩
  · exact h.halt c
  · exact h.completed hpc hn

/-- Fetching latches the opcode, which the invariant does not speak of; then the instruction, or a halt. -/
protected theorem instrStep (h : s.Inv) (hs : s.instrStep = .next t) : t.Inv := by
  rcases State.instrStep_cases hs with ⟨-, ht⟩ | ⟨hpc, op, -, ⟨e, -, ht⟩ | ⟨i, -, ht⟩⟩
  · cases ht
    exact h.halt _
  · cases ht
    exact State.Inv.halt (s := { s with opcode := op }) { h with } _
  · exact State.Inv.exec (s := { s with opcode := op }) { h with } hpc ht.symm

/-- Sampling presents, if it presents, the framebuffer the invariant speaks of; RUN only falls. -/
protected theorem sample (h : s.Inv) (tmr cpu stop : Bool) (rnd : Byte) : (s.sample tmr cpu stop rnd).Inv := by
  rw [State.sample_eq]
  refine { h with frameStrobe := ?_, frameForm := ?_, haltStops := ?_ }
  · cases tmr
    · simpa using h.frameStrobe
    · simp
  · cases tmr
    · exact h.frameForm
    · rintro m ⟨⟩
      exact ⟨h.vramForm, h.mono⟩
  · intro hr
    rw [h.haltStops hr, Bool.false_and]

protected theorem iterate (h : s.Inv) {tmr cpu stop : Bool} {rnd : Byte} (hs : s.iterate tmr cpu stop rnd = .next t) :
    t.Inv := by
  have hsample := h.sample tmr cpu stop rnd
  rcases s.iterate_cases tmr cpu stop rnd with ⟨-, -, hi⟩ | ⟨-, -, -, hi⟩ | ⟨-, -, hi⟩ | ⟨-, -, hi⟩
  · obtain ⟨u, hu, rfl⟩ := closeGate_next (hi.symm.trans hs)
    exact { hsample.instrStep hu with }
  · cases hi.symm.trans hs
    exact hsample
  · cases hi.symm.trans hs
    exact h
  · cases hi.symm.trans hs

/-- The reset values meet every clause but those on RAM and the frame (R196). -/
protected theorem of_atReset (hreset : s.atReset) (hvram : s.vram = [])
    (ramForm : Memory.wf Config.ramSize ramUnlisted s.ram) (frameStrobe : s.present = s.frame.isSome)
    (frameForm : ∀ m, s.frame = some m → Memory.wf Config.vramSize vramUnlisted m ∧ m.monochrome) : s.Inv := by
  obtain ⟨-, -, hpc, -, hstack, -, -, -, -, hreason, -⟩ := hreset
  exact
    { ramForm, frameStrobe, frameForm
      vramForm := hvram ▸ Memory.wf_nil ..
      mono := by rw [State.monochrome, hvram]; exact Memory.monochrome_nil
      haltCode := by rw [hreason]; decide
      haltStops := absurd hreason
      pcBound := by rw [hpc]; decide
      stackBound := fun k hk => by rw [hstack k hk]; decide
      topSlot := hstack 15 (by decide) }

/-- `Reset()` leaves RAM and the frame, and writes the reset values (R195). -/
protected theorem resetCore (h : s.Inv) : s.resetCore.Inv :=
  .of_atReset s.resetCore_atReset rfl h.ramForm h.frameStrobe h.frameForm

protected theorem runRequest (h : s.Inv) : s.runRequest.Inv := by
  rcases s.runRequest_cases with ⟨-, hr⟩ | ⟨-, -, hr⟩ | ⟨-, -, hr⟩ <;> rw [hr]
  · exact h
  · exact { h.resetCore with haltStops := fun hne => absurd rfl hne }
  · exact { h with }

/-- Bytes loaded into RAM keep its canonical form, and touch nothing else the invariant speaks of. -/
protected theorem load (h : s.Inv) (font program : List Byte) : (s.load font program).Inv := by
  have hram : Memory.wf Config.ramSize ramUnlisted (s.load font program).ram :=
    State.setRamBytes_wf _ _ _ (State.setRamBytes_wf _ _ _ h.ramForm)
  rw [State.load_eq]
  exact { h with ramForm := hram }

protected theorem setRamByte (h : s.Inv) (a : Nat) (b : Byte) : (s.setRamByte a b).Inv := by
  have hram := s.setRamByte_wf a b h.ramForm
  rw [State.setRamByte_eq]
  exact { h with ramForm := hram }

protected theorem receive (h : s.Inv) {inp : HostInput} (hs : s.receive inp = .next t) : t.Inv := by
  cases inp with
  | iterate tmr cpu stop rnd => exact h.iterate hs
  | stopRequest =>
    cases hs
    exact { h with haltStops := fun _ => rfl }
  | runRequest =>
    cases hs
    exact h.runRequest
  | resetRequest =>
    cases (State.whileStopped_next hs).2
    exact h.resetCore
  | attach port =>
    cases (State.whileStopped_next hs).2
    exact { h with }
  | load font program =>
    obtain ⟨-, rfl⟩ := State.loadRequest_next (State.whileStopped_next hs).2
    exact h.load font program
  | writeRam a b =>
    obtain ⟨-, rfl⟩ := State.hostWrite_next (State.whileStopped_next hs).2
    exact h.setRamByte a b

/-- Taking an input lowers the strobes and drops the frame. -/
protected theorem inputTaken (h : s.Inv) : s.inputTaken.Inv := by
  rw [State.inputTaken_eq]
  exact { h with frameStrobe := rfl, frameForm := nofun }

end State.Inv

/-- Settles O23: taking an input keeps the invariant, and so does whatever the input asks for. -/
theorem everyStepKeepsTheInvariant : Obligations.EveryStepKeepsTheInvariant :=
  fun _ _ h hs => h.inputTaken.receive hs

/-- Settles O22: the reset values, with RAM listing nothing and no frame. -/
theorem invariantHoldsAtReset : Obligations.InvariantHoldsAtReset :=
  .of_atReset resetStateHoldsTheResetValues.1 rfl (Memory.wf_nil ..) rfl nofun

end Sys2Proof.Machine
end

section
/-! SUPPORT. The state a loop iteration samples before its instruction, what an iteration then answers, and which moves
touch what is handed to the display; the word placed at PC; then the settled statements of spec/20_memory.md. -/

namespace Sys2Proof.Machine

/-! ## Frames -/

/-- A piece of state that is the same can be dropped from those that may differ. -/
theorem SameBut.drop {p : Part} {parts rest : List Part} {s t : State} (h : SameBut parts s t) (hp : p.same s t)
    (hsub : parts ⊆ p :: rest) : SameBut rest s t := by
  intro q hq
  by_cases hqp : q = p
  · exact hqp ▸ hp
  · exact h q fun hmem => (List.mem_cons.1 (hsub hmem)).elim hqp hq

/-- Latching an opcode changes OPCODE alone (R159). -/
theorem SameBut.withOpcode {parts : List Part} {s t : State} (h : SameBut parts s t) (op : Word) :
    SameBut (.opcode :: parts) s { t with opcode := op } := by
  intro p hp
  have hsame := h p fun hmem => hp (List.mem_cons_of_mem _ hmem)
  cases p with
  | opcode => exact absurd List.mem_cons_self hp
  | _ => exact hsame

/-! ## The sampled state of an iteration -/

/-- The state in which an iteration fetches, or which it leaves when it fetches nothing: its input taken, its inputs
sampled and the tick performed (R158). -/
def State.sampled (s : State) (tmr cpu stop : Bool) (rnd : Byte) : State := s.inputTaken.sample tmr cpu stop rnd

section Sampled

variable (s : State) (tmr cpu stop : Bool) (rnd : Byte)

/-- Present and the frame are those of this iteration alone, since taking the input lowered the strobes (R156). -/
theorem State.sampled_eq : s.sampled tmr cpu stop rnd =
    { s with
      inputs := s.inputTaken.inputs, inputNo := s.inputTaken.inputNo, rnd := rnd, run := s.run && !stop,
      gate := s.gate || cpu, present := tmr, frame := if tmr then some s.vram else none, setupError := false,
      st := if tmr then countDown s.st else s.st, dt := if tmr then countDown s.dt else s.dt } := by
  rw [State.sampled, State.sample_eq, State.inputTaken_eq]
  rfl

@[simp] theorem State.sampled_inputs : (s.sampled tmr cpu stop rnd).inputs = s.inputTaken.inputs := by
  rw [State.sampled_eq]

@[simp] theorem State.sampled_inputNo : (s.sampled tmr cpu stop rnd).inputNo = s.inputTaken.inputNo := by
  rw [State.sampled_eq]

@[simp] theorem State.sampled_rnd : (s.sampled tmr cpu stop rnd).rnd = rnd := by rw [State.sampled_eq]

@[simp] theorem State.sampled_run : (s.sampled tmr cpu stop rnd).run = (s.run && !stop) := by rw [State.sampled_eq]

@[simp] theorem State.sampled_gate : (s.sampled tmr cpu stop rnd).gate = (s.gate || cpu) := by rw [State.sampled_eq]

@[simp] theorem State.sampled_setupError : (s.sampled tmr cpu stop rnd).setupError = false := by
  rw [State.sampled_eq]

@[simp] theorem State.sampled_pc : (s.sampled tmr cpu stop rnd).pc = s.pc := by rw [State.sampled_eq]

@[simp] theorem State.sampled_wordAtPc : (s.sampled tmr cpu stop rnd).wordAtPc = s.wordAtPc := by
  rw [State.sampled_eq]
  rfl

/-- Sampling performs the tick exactly when the timer cadence fires (R185). -/
theorem State.sampled_tickPerformed : TickPerformed tmr s (s.sampled tmr cpu stop rnd) := by
  rw [State.sampled_eq]
  cases tmr
  · exact ⟨rfl, rfl, rfl, rfl⟩
  · exact ⟨rfl, rfl, countDown_toNat s.st, countDown_toNat s.dt⟩

/-- Sampling touches RUN, the gate, the timers and the lines of the interface, and no other piece of state. -/
theorem State.sampled_sameBut : SameBut [.run, .gate, .dt, .st, .strobes, .inputs] s (s.sampled tmr cpu stop rnd) := by
  rw [State.sampled_eq]
  intro p hp
  cases p with
  | run | gate | dt | st | strobes | inputs => exact absurd hp (by decide)
  | regs | ram | vram => exact fun _ => rfl
  | stack => exact ⟨rfl, rfl⟩
  | haltRegs => exact ⟨rfl, rfl, rfl⟩
  | i | pc | opcode | attached | params => rfl

end Sampled

@[simp] theorem State.inputTaken_run (s : State) : s.inputTaken.run = s.run := by rw [State.inputTaken_eq]

/-! ## What an iteration answers -/

section Iteration

variable {s : State} {tmr cpu stop : Bool} {rnd : Byte}

/-- An iteration of a Running machine fetches, or not, in the sampled state, as the gate says (R158). -/
theorem step_of_running (h : s.input = .iterate tmr cpu stop rnd) (hrun : s.run = true) : step s =
    if s.gate || cpu then closeGate (s.sampled tmr cpu stop rnd).instrStep else .next (s.sampled tmr cpu stop rnd) := by
  rw [step, h, State.receive, State.iterate, State.inputTaken_run, if_pos hrun, ← s.sampled_gate tmr cpu stop rnd]
  rfl

/-- With the gate open or opening, the instruction step, and then the gate closed (R161). -/
theorem step_of_executes (h : Executes s tmr cpu stop rnd) :
    step s = closeGate (s.sampled tmr cpu stop rnd).instrStep := by
  obtain ⟨hin, hrun, hgate⟩ := h
  rw [step_of_running hin hrun, if_pos (Bool.or_eq_true_iff.2 hgate)]

end Iteration

/-- A fetch from RAM of a word that decodes leads to its instruction, the word latched (R159, R160). -/
theorem State.instrStep_eq_exec {s : State} {i : Instr} (hpc : s.pc.toNat ≤ 0xFFE)
    (hi : decodeWord s.wordAtPc = .ok i) : s.instrStep = exec i { s with opcode := s.wordAtPc } := by
  rcases State.instrStep_cases (s := s) rfl with ⟨hout, -⟩ | ⟨-, op, rfl, ⟨e, he, -⟩ | ⟨j, hj, hr⟩⟩
  · omega
  · cases he.symm.trans hi
  · cases hj.symm.trans hi
    exact hr

/-- Two bytes that decode are a word that decodes (R60). -/
theorem decodeWord_of_decode_pair {hi lo : Byte} {i : Instr} (h : decode [hi, lo] = .ok (i, [])) :
    decodeWord (wordOfBytes hi lo) = .ok i := by
  rw [decode] at h
  split at h
  · rename_i j hj
    cases h
    exact hj
  · cases h

/-- Settles O14: with the gate closed the iteration leaves the sampled state, and the gate stays closed. -/
theorem timerTickCountsBothTimersDown : Obligations.TimerTickCountsBothTimersDown := by
  intro s tmr stop rnd hin hrun hgate
  have hstep : step s = .next (s.sampled tmr false stop rnd) := by simp [step_of_running hin hrun, hgate]
  have hclosed : Part.gate.same s (s.sampled tmr false stop rnd) := by simp [Part.same]
  have hsame := s.sampled_sameBut tmr false stop rnd
  exact ⟨_, hstep, by simp, s.sampled_tickPerformed .., by simp [hrun], hsame.drop hclosed (by decide)⟩

/-- Settles O17: the instruction runs in the sampled state, the word at PC latched. -/
theorem stepRunsTheDecodedInstruction : Obligations.StepRunsTheDecodedInstruction := by
  intro s tmr cpu stop rnd i hexec hpc hdecode
  have hstep : step s = closeGate (exec i { s.sampled tmr cpu stop rnd with opcode := s.wordAtPc }) := by
    have hi : decodeWord s.wordAtPc = .ok i := decodeWord_of_decode_pair hdecode
    rw [step_of_executes hexec, State.instrStep_eq_exec (by simpa using hpc) (by simpa using hi),
      State.sampled_wordAtPc]
  have hsame := (s.sampled_sameBut tmr cpu stop rnd).withOpcode s.wordAtPc
  obtain ⟨-, hrun, hgate⟩ := hexec
  refine ⟨{ s.sampled tmr cpu stop rnd with opcode := s.wordAtPc }, rfl, by simp [hrun], by simpa using hgate,
    by simp, by simp, by simp, by simp, s.sampled_tickPerformed tmr cpu stop rnd, hsame, hstep, fun t ht => ?_⟩
  rw [hstep, ht, closeGate]

/-! ## What the display is handed -/

/-- The strobe `present`, and the frame handed over with it (R54, R166). -/
def State.handedOver (s : State) : Bool × Option Memory := (s.present, s.frame)

/-- What does not touch the lines of the interface does not touch what is handed over. -/
theorem ExecFrame.handedOver_eq {s t : State} (h : ExecFrame s t) : t.handedOver = s.handedOver := by
  unfold ExecFrame at h
  rw [h]
  rfl

/-- Neither a fetch, a halt nor an instruction touches what the tick before it handed over. -/
theorem State.instrStep_handedOver {s t : State} (h : s.instrStep = .next t) : t.handedOver = s.handedOver := by
  rcases State.instrStep_cases h with ⟨-, ht⟩ | ⟨-, op, -, ⟨e, -, ht⟩ | ⟨i, -, ht⟩⟩
  · cases ht; rfl
  · cases ht; rfl
  · exact (exec_execFrame ht.symm).handedOver_eq

/-- An iteration of a Running machine hands over what its sampling does, whatever instruction follows. -/
theorem step_handedOver_of_running {s t : State} {tmr cpu stop : Bool} {rnd : Byte}
    (hin : s.input = .iterate tmr cpu stop rnd) (hrun : s.run = true) (h : step s = .next t) :
    t.handedOver = (s.sampled tmr cpu stop rnd).handedOver := by
  rw [step_of_running hin hrun] at h
  split at h
  · obtain ⟨u, hu, rfl⟩ := closeGate_next h
    exact (State.instrStep_handedOver hu : u.handedOver = _)
  · cases h; rfl

/-- An answered iteration of a Stopped machine is no change at all (R158, R163). -/
theorem State.iterate_eq_of_stopped {s t : State} {tmr cpu stop : Bool} {rnd : Byte} (hrun : s.run = false)
    (h : s.iterate tmr cpu stop rnd = .next t) : t = s := by
  rcases s.iterate_cases tmr cpu stop rnd with ⟨hr, -⟩ | ⟨hr, -⟩ | ⟨-, -, hi⟩ | ⟨-, -, hi⟩
  · cases hr.symm.trans hrun
  · cases hr.symm.trans hrun
  · cases hi.symm.trans h; rfl
  · cases hi.symm.trans h

theorem State.runRequest_handedOver (s : State) : s.runRequest.handedOver = s.handedOver := by
  rcases s.runRequest_cases with ⟨-, hr⟩ | ⟨-, -, hr⟩ | ⟨-, -, hr⟩ <;> rw [hr] <;> rfl

/-- A move that is no iteration of a Running machine hands nothing over. -/
theorem State.receive_handedOver {s t : State} {inp : HostInput}
    (hno : s.run = false ∨ ∀ tmr cpu stop rnd, inp ≠ .iterate tmr cpu stop rnd) (h : s.receive inp = .next t) :
    t.handedOver = s.handedOver := by
  cases inp with
  | iterate tmr cpu stop rnd =>
    have hrun : s.run = false := hno.resolve_right fun hne => hne tmr cpu stop rnd rfl
    rw [State.iterate_eq_of_stopped hrun h]
  | stopRequest => cases h; rfl
  | runRequest => cases h; exact s.runRequest_handedOver
  | resetRequest => cases (State.whileStopped_next h).2; rfl
  | attach port => cases (State.whileStopped_next h).2; rfl
  | load font program =>
    obtain ⟨-, rfl⟩ := State.loadRequest_next (State.whileStopped_next h).2
    rw [State.load_eq]
    rfl
  | writeRam a b =>
    obtain ⟨-, rfl⟩ := State.hostWrite_next (State.whileStopped_next h).2
    rw [State.setRamByte_eq]
    rfl

/-- Taking an input lowers the strobe and drops the frame (R156). -/
theorem State.inputTaken_handedOver (s : State) : s.inputTaken.handedOver = (false, none) := by
  rw [State.inputTaken_eq]
  rfl

/-- Settles O15: an iteration hands over what its tick found, before its instruction; no other move hands over
anything. -/
theorem presentShowsCompletedInstructionsOnly : Obligations.PresentShowsCompletedInstructionsOnly := by
  constructor
  · intro s t tmr cpu stop rnd hin hrun hs
    obtain ⟨hpresent, hframe, -⟩ := s.sampled_tickPerformed tmr cpu stop rnd
    obtain ⟨hp, hf⟩ := Prod.mk.inj (step_handedOver_of_running hin hrun hs)
    exact ⟨hp.trans hpresent, hf.trans hframe⟩
  · intro s t hs hno
    rw [← s.inputTaken_run] at hno
    exact Prod.mk.inj ((State.receive_handedOver hno hs).trans s.inputTaken_handedOver)

/-! ## A word placed at PC -/

/-- Placing a word touches the RAM field alone. -/
theorem State.placeWord_eq (s : State) (op : Word) :
    s.placeWord op = { s with ram := (s.placeWord op).ram } := by
  rw [State.placeWord, State.setRamByte_eq, State.setRamByte_eq s]

/-- The word at PC is the one placed there, high byte first (R44). -/
theorem State.wordAtPc_placeWord {s : State} (hpc : s.pc.toNat ≤ 0x0FFE) (op : Word) :
    (s.placeWord op).wordAtPc = op := by
  have hhi : (s.placeWord op).ramByte s.pc.toNat = highByte op :=
    (State.ramByte_setRamByte_of_ne _ _ (by omega)).trans
      (State.ramByte_setRamByte_self _ _ ((inRam_iff _).2 (by omega)))
  have hlo : (s.placeWord op).ramByte (s.pc.toNat + 1) = lowByte op :=
    State.ramByte_setRamByte_self _ _ ((inRam_iff _).2 (by omega))
  have hp : (s.placeWord op).pc = s.pc := by rw [State.placeWord_eq]
  rw [State.wordAtPc, hp, hhi, hlo]
  exact wordOfBytes_high_low op

/-- Every other byte of RAM reads as before. -/
theorem State.ramByte_placeWord_of_ne (s : State) (op : Word) {a : Nat} (hhi : a ≠ s.pc.toNat)
    (hlo : a ≠ s.pc.toNat + 1) : (s.placeWord op).ramByte a = s.ramByte a :=
  (State.ramByte_setRamByte_of_ne _ _ hlo).trans (State.ramByte_setRamByte_of_ne _ _ hhi)

/-- Settles O18: the iteration put in front opens the gate, and the word lies at PC. -/
theorem withFetchWordIsRunNext : Obligations.WithFetchWordIsRunNext := by
  intro s nbits w hpc
  refine ⟨⟨rfl, rfl, .inr rfl⟩, State.wordAtPc_placeWord hpc _, ?_, fun a => s.ramByte_placeWord_of_ne _⟩
  rw [State.withFetchWord, State.placeWord_eq]

/-! ## A sprite that fits -/

theorem decodeWord_sprite (x y n : Nibble) : decodeWord (encodeXYN 0xD#4 x y n) = .ok (.sprite x y n) := by
  simp [decodeWord]

/-- SPRITE writes VRAM, VF and PC, and no other piece of state (R125). -/
theorem State.completed_sprite_sameBut (s : State) (x y n : Nibble) :
    SameBut [.regs, .vram, .pc] s (s.completed (.sprite x y n)) := by
  intro p hp
  cases p with
  | regs | vram | pc => exact absurd hp (by decide)
  | ram => exact fun _ => rfl
  | stack => exact ⟨rfl, rfl⟩
  | haltRegs | strobes | inputs => exact ⟨rfl, rfl, rfl⟩
  | i | dt | st | opcode | run | gate | attached | params => rfl

section Fits

variable {s : State} {x y n : Nibble} (h : haltTable s (.sprite x y n) = none)
include h

/-- A byte of a pixel after a completed SPRITE: flipped where a set bit lands on the pixel (R125, R126). -/
theorem State.vramByte_completed_sprite {px py c : Nat} (hx : px < 64) (hc : c < 3) :
    (s.completed (.sprite x y n)).vramByte (pixOffset px py + c) =
      if (px, py) ∈ s.pixelsOf x y n then pixelByte (!s.vram.pixRead px py) else s.vramByte (pixOffset px py + c) := by
  rw [State.vramByte, State.completed_sprite_vram]
  exact vramByte_flipPixels _ _ (s.pixelsOf_nodup x y n) (fun p hp => (s.pixelsOf_inGrid h p hp).1) px py c hx hc

/-- Nothing beyond VRAM is written (R40). -/
theorem State.vramByte_completed_sprite_beyond {k : Nat} (hk : k ≥ 6144) :
    (s.completed (.sprite x y n)).vramByte k = s.vramByte k := by
  rw [State.vramByte, State.completed_sprite_vram]
  exact vramByte_flipPixels_beyond _ _ (s.pixelsOf_inGrid h) k hk

/-- VF is the collision: some pixel a set bit lands on was lit before (R128). -/
theorem State.completed_sprite_collision : (s.completed (.sprite x y n)).reg vf = 0x01#8 ↔
    ∃ px py, SpriteCovers s (s.reg x).toNat (s.reg y).toNat n.toNat px py ∧ PixelLit s px py := by
  rw [State.reg_vf_completed_sprite_iff h, Prod.exists]
  simp only [State.mem_pixelsOf_iff]

end Fits

/-- Settles O47: a sprite that fits completes as the walk over the pixels its set bits land on. -/
theorem spriteFlipsThePixelsItCovers : Obligations.SpriteFlipsThePixelsItCovers := by
  refine ⟨decodeWord_sprite, fun s x y n hfits => ?_⟩
  have hn := (haltTable_sprite_eq_none_iff s x y n).2 hfits
  have hflag : IsFlag ((s.completed (.sprite x y n)).reg vf) := by
    rw [State.reg_vf_completed_sprite]
    exact isFlag_flagByte _
  have hcollision := State.completed_sprite_collision hn
  refine ⟨_, exec_of_haltTable_none hn, fun px py hx _ c hc => ?_,
    fun _ => State.vramByte_completed_sprite_beyond hn, hcollision.2,
    fun hno => hflag.resolve_right (mt hcollision.1 hno), s.completed_pc_toNat _,
    s.completed_regsSameBut (.sprite x y n), s.completed_sprite_sameBut x y n⟩
  rw [← State.mem_pixelsOf_iff, pixelLit_iff, ← pixOffset_eq, State.vramByte_completed_sprite hn hx hc]
  refine ⟨fun hm => ⟨fun hlit => ?_, fun hdark => ?_⟩, fun hm => if_neg hm⟩
  · rw [if_pos hm, hlit]; rfl
  · rw [if_pos hm, Bool.eq_false_of_not_eq_true hdark]; rfl

end Sys2Proof.Machine
end

section
/-! SUPPORT. The decoder and the encoder against each other, the rows of the opcode map, and the words that are in no
row; then the settled statements of spec/30_encoding.md. -/

namespace Sys2Proof

/-! ## Decoding an encoded instruction -/

theorem decodeWord_encode (i : Instr) : decodeWord (encode i) = .ok i := by
  cases i with
  | cls | rts => rfl
  | jmp | jsr | skeqImm | skneImm | movImm | addImm | mvi | jmi | rand => simp [encode, decodeWord]
  | sprite x y n => exact Machine.decodeWord_sprite x y n
  | skeqReg | skneReg => simp [encode, decodeWord, decodeSkeqReg, decodeSkneReg]
  | movReg | orReg | andReg | xorReg | addReg | subReg | shr | rsb | shl => simp [encode, decodeWord, decodeAlu]
  | skpr | skup => simp [encode, decodeWord, decodeKey]
  | gdelay | key | sdelay | ssound | adi | font | bcd | str | ldr => simp [encode, decodeWord, decodeMisc]

/-- Of a list of bytes the decoder reads the first two, the high byte first (R44, R60). -/
theorem decode_highByte_lowByte (op : Word) (rest : List Byte) :
    decode (highByte op :: lowByte op :: rest) = (decodeWord op).map fun i => (i, rest) := by
  rw [decode, wordOfBytes_high_low]
  cases decodeWord op <;> rfl

theorem tableWord_toNat (op : Word) : tableWord 16 op.toNat = op := by
  simp [tableWord, Nat.mod_eq_of_lt op.isLt]

/-- Settles O1: the word, from which the other two readers take the same two bytes. -/
theorem decodingAnEncodedInstructionGivesItBack : Obligations.DecodingAnEncodedInstructionGivesItBack := by
  intro i
  have hbytes (rest : List Byte) : decode (highByte (encode i) :: lowByte (encode i) :: rest) = .ok (i, rest) := by
    rw [decode_highByte_lowByte, decodeWord_encode]
    rfl
  exact ⟨decodeWord_encode i, hbytes, by rw [decodeTableWord, tableWord_toNat, hbytes]⟩

/-! ## The two levels of the decoder -/

section Families

variable {op : Word} {i : Instr}

theorem decodeWord_eq_decodeSystem (hT : fieldT op = 0x0#4) : decodeWord op = decodeSystem op := by
  rw [decodeWord, hT]; rfl

theorem decodeWord_eq_decodeSkeqReg (hT : fieldT op = 0x5#4) : decodeWord op = decodeSkeqReg op := by
  rw [decodeWord, hT]; rfl

theorem decodeWord_eq_decodeAlu (hT : fieldT op = 0x8#4) : decodeWord op = decodeAlu op := by
  rw [decodeWord, hT]; rfl

theorem decodeWord_eq_decodeSkneReg (hT : fieldT op = 0x9#4) : decodeWord op = decodeSkneReg op := by
  rw [decodeWord, hT]; rfl

theorem decodeWord_eq_decodeKey (hT : fieldT op = 0xE#4) : decodeWord op = decodeKey op := by
  rw [decodeWord, hT]; rfl

theorem decodeWord_eq_decodeMisc (hT : fieldT op = 0xF#4) : decodeWord op = decodeMisc op := by
  rw [decodeWord, hT]; rfl

/-- Everything the first level can do (R64): six families go on to a second level; in the others the fields of the word
are the operands, and no bit is left over. Arm `h_(k+1)` of the first level is family k. -/
theorem decodeWord_cases (op : Word) :
    fieldT op = 0x0#4 ∨ fieldT op = 0x5#4 ∨ fieldT op = 0x8#4 ∨ fieldT op = 0x9#4 ∨ fieldT op = 0xE#4 ∨
      fieldT op = 0xF#4 ∨ ∃ i, decodeWord op = .ok i ∧ encode i = op := by
  unfold decodeWord
  split
  case h_1 hT | h_6 hT | h_9 hT | h_10 hT | h_15 hT => simp [nibble_eq hT]
  case h_16 =>
    simp only [imp_false] at *
    have hT : (fieldT op).toNat = 15 := by omega
    simp [nibble_eq hT]
  case h_2 hT | h_3 hT | h_11 hT | h_12 hT => simp [encode, ← nibble_eq hT, encodeNNN_fields]
  case h_4 hT | h_5 hT | h_7 hT | h_8 hT | h_13 hT => simp [encode, ← nibble_eq hT, encodeXKK_fields]
  case h_14 hT => simp [encode, ← nibble_eq hT, encodeXYN_fields]

/-! ## Encoding a decoded word -/

theorem encode_of_decodeSystem (h : decodeSystem op = .ok i) : encode i = op := by
  unfold decodeSystem at h
  split at h
  · rename_i hop; cases h; exact hop.symm
  · split at h
    · rename_i hop; cases h; exact hop.symm
    · cases h

theorem encode_of_decodeSkeqReg (h : decodeSkeqReg op = .ok i) :
    encode i = encodeXYN 0x5#4 (fieldX op) (fieldY op) (fieldN op) := by
  unfold decodeSkeqReg at h
  split at h
  · rename_i hN; cases h; rw [hN]; rfl
  · cases h

theorem encode_of_decodeSkneReg (h : decodeSkneReg op = .ok i) :
    encode i = encodeXYN 0x9#4 (fieldX op) (fieldY op) (fieldN op) := by
  unfold decodeSkneReg at h
  split at h
  · rename_i hN; cases h; rw [hN]; rfl
  · cases h

theorem encode_of_decodeAlu (h : decodeAlu op = .ok i) :
    encode i = encodeXYN 0x8#4 (fieldX op) (fieldY op) (fieldN op) := by
  unfold decodeAlu at h
  split at h <;> rename_i hN <;> cases h <;> rw [nibble_eq hN] <;> rfl

theorem encode_of_decodeKey (h : decodeKey op = .ok i) : encode i = encodeXKK 0xE#4 (fieldX op) (fieldKK op) := by
  unfold decodeKey at h
  split at h <;> rename_i hKK <;> cases h <;> rw [byte_eq hKK] <;> rfl

theorem encode_of_decodeMisc (h : decodeMisc op = .ok i) : encode i = encodeXKK 0xF#4 (fieldX op) (fieldKK op) := by
  unfold decodeMisc at h
  split at h <;> rename_i hKK <;> cases h <;> rw [byte_eq hKK] <;> rfl

/-- The decoder drops no bit of the word: the level that reads it keeps every field, or compares it with the constant
the encoder writes there. -/
theorem encode_of_decodeWord (h : decodeWord op = .ok i) : encode i = op := by
  rcases decodeWord_cases op with hT | hT | hT | hT | hT | hT | ⟨j, hj, hop⟩
  · exact encode_of_decodeSystem ((decodeWord_eq_decodeSystem hT).symm.trans h)
  · rw [encode_of_decodeSkeqReg ((decodeWord_eq_decodeSkeqReg hT).symm.trans h), ← hT, encodeXYN_fields]
  · rw [encode_of_decodeAlu ((decodeWord_eq_decodeAlu hT).symm.trans h), ← hT, encodeXYN_fields]
  · rw [encode_of_decodeSkneReg ((decodeWord_eq_decodeSkneReg hT).symm.trans h), ← hT, encodeXYN_fields]
  · rw [encode_of_decodeKey ((decodeWord_eq_decodeKey hT).symm.trans h), ← hT, encodeXKK_fields]
  · rw [encode_of_decodeMisc ((decodeWord_eq_decodeMisc hT).symm.trans h), ← hT, encodeXKK_fields]
  · cases hj.symm.trans h
    exact hop

end Families

/-- Settles O2, family by family. -/
theorem encodingADecodedWordGivesItBack : Obligations.EncodingADecodedWordGivesItBack :=
  fun _ _ => encode_of_decodeWord

/-! ## What the masks of the opcode map ask of a word -/

theorem encodeNNN_and (t t' : Nibble) (nnn nnn' : Addr) :
    encodeNNN t nnn &&& encodeNNN t' nnn' = encodeNNN (t &&& t') (nnn &&& nnn') :=
  BitVec.and_append

theorem encodeXKK_and (t x t' x' : Nibble) (kk kk' : Byte) :
    encodeXKK t x kk &&& encodeXKK t' x' kk' = encodeXKK (t &&& t') (x &&& x') (kk &&& kk') := by
  rw [encodeXKK, encodeXKK, BitVec.and_append, BitVec.and_append, encodeXKK]

theorem encodeXYN_and (t x y n t' x' y' n' : Nibble) :
    encodeXYN t x y n &&& encodeXYN t' x' y' n' = encodeXYN (t &&& t') (x &&& x') (y &&& y') (n &&& n') := by
  rw [encodeXYN, encodeXYN, BitVec.and_append, BitVec.and_append, BitVec.and_append, encodeXYN]

theorem nibble_and_ones (b : Nibble) : b &&& 0xF#4 = b := BitVec.and_allOnes

theorem byte_and_ones (b : Byte) : b &&& 0xFF#8 = b := BitVec.and_allOnes

section
variable (op : Word)

/-- The mask F000 keeps the family. -/
theorem and_mask_family : op &&& 0xF000#16 = encodeNNN (fieldT op) 0x000#12 :=
  calc op &&& 0xF000#16
    _ = encodeNNN (fieldT op) (fieldNNN op) &&& encodeNNN 0xF#4 0x000#12 := by rw [encodeNNN_fields]; rfl
    _ = encodeNNN (fieldT op) 0x000#12 := by rw [encodeNNN_and, nibble_and_ones, BitVec.and_zero]

/-- The mask F00F keeps the family and the low nibble. -/
theorem and_mask_lowNibble : op &&& 0xF00F#16 = encodeXYN (fieldT op) 0x0#4 0x0#4 (fieldN op) :=
  calc op &&& 0xF00F#16
    _ = encodeXYN (fieldT op) (fieldX op) (fieldY op) (fieldN op) &&& encodeXYN 0xF#4 0x0#4 0x0#4 0xF#4 := by
      rw [encodeXYN_fields]; rfl
    _ = encodeXYN (fieldT op) 0x0#4 0x0#4 (fieldN op) := by
      rw [encodeXYN_and, nibble_and_ones, nibble_and_ones, BitVec.and_zero, BitVec.and_zero]

/-- The mask F0FF keeps the family and the low byte. -/
theorem and_mask_lowByte : op &&& 0xF0FF#16 = encodeXKK (fieldT op) 0x0#4 (fieldKK op) :=
  calc op &&& 0xF0FF#16
    _ = encodeXKK (fieldT op) (fieldX op) (fieldKK op) &&& encodeXKK 0xF#4 0x0#4 0xFF#8 := by
      rw [encodeXKK_fields]; rfl
    _ = encodeXKK (fieldT op) 0x0#4 (fieldKK op) := by
      rw [encodeXKK_and, nibble_and_ones, byte_and_ones, BitVec.and_zero]

end

namespace OpcodeRow

variable {op p : Word}

theorem matches_iff {r : OpcodeRow} : r.matches op = true ↔ op &&& r.mask = r.pattern := beq_iff_eq

theorem matches_word_iff : OpcodeRow.matches ⟨0xFFFF#16, p⟩ op = true ↔ op = p := by
  rw [matches_iff, show op &&& 0xFFFF#16 = op from BitVec.and_allOnes]

theorem matches_family_iff (hp : p &&& 0xF000#16 = p) :
    OpcodeRow.matches ⟨0xF000#16, p⟩ op = true ↔ fieldT op = fieldT p := by
  rw [and_mask_family] at hp
  rw [matches_iff, and_mask_family]
  constructor
  · rintro rfl
    exact (fieldT_encodeNNN _ _).symm
  · intro hT
    rw [hT, hp]

theorem matches_lowNibble_iff (hp : p &&& 0xF00F#16 = p) :
    OpcodeRow.matches ⟨0xF00F#16, p⟩ op = true ↔ fieldT op = fieldT p ∧ fieldN op = fieldN p := by
  rw [and_mask_lowNibble] at hp
  rw [matches_iff, and_mask_lowNibble]
  constructor
  · rintro rfl
    exact ⟨(fieldT_encodeXYN ..).symm, (fieldN_encodeXYN ..).symm⟩
  · rintro ⟨hT, hN⟩
    rw [hT, hN, hp]

theorem matches_lowByte_iff (hp : p &&& 0xF0FF#16 = p) :
    OpcodeRow.matches ⟨0xF0FF#16, p⟩ op = true ↔ fieldT op = fieldT p ∧ fieldKK op = fieldKK p := by
  rw [and_mask_lowByte] at hp
  rw [matches_iff, and_mask_lowByte]
  constructor
  · rintro rfl
    exact ⟨(fieldT_encodeXKK ..).symm, (fieldKK_encodeXKK ..).symm⟩
  · rintro ⟨hT, hKK⟩
    rw [hT, hKK, hp]

end OpcodeRow

/-! ## The decoder and the opcode map -/

section Rows

open OpcodeRow

/-- An encoded instruction matches the row it is written in. -/
theorem Instr.row_matches_encode (i : Instr) : i.row.matches (encode i) = true := by
  cases i with
  | cls | rts => exact matches_word_iff.2 rfl
  | jmp nnn | jsr nnn | mvi nnn | jmi nnn => exact (matches_family_iff rfl).2 (fieldT_encodeNNN _ nnn)
  | skeqImm x kk | skneImm x kk | movImm x kk | addImm x kk | rand x kk =>
    exact (matches_family_iff rfl).2 (fieldT_encodeXKK _ x kk)
  | sprite x y n => exact (matches_family_iff rfl).2 (fieldT_encodeXYN _ x y n)
  | skeqReg x y | skneReg x y | movReg x y | orReg x y | andReg x y | xorReg x y | addReg x y | subReg x y | shr x y
  | rsb x y | shl x y => exact (matches_lowNibble_iff rfl).2 ⟨fieldT_encodeXYN _ x y _, fieldN_encodeXYN _ x y _⟩
  | skpr x | skup x | gdelay x | key x | sdelay x | ssound x | adi x | font x | bcd x | str x | ldr x =>
    exact (matches_lowByte_iff rfl).2 ⟨fieldT_encodeXKK _ x _, fieldKK_encodeXKK _ x _⟩

/-- A word that matches the row of an instruction has, in the fields the decoder dispatches on, what that instruction
has there, so it decodes to an instruction of that row. -/
theorem exists_decodeWord_of_row_matches {j : Instr} {op : Word} (h : j.row.matches op = true) :
    ∃ i, decodeWord op = .ok i ∧ i.row = j.row := by
  cases j with
  | cls | rts =>
    rw [matches_word_iff.1 h]
    exact ⟨_, rfl, rfl⟩
  | jmp | jsr | skeqImm | skneImm | movImm | addImm | mvi | jmi | rand | sprite =>
    rw [decodeWord, (matches_family_iff rfl).1 h]
    exact ⟨_, rfl, rfl⟩
  | skeqReg =>
    obtain ⟨hT, hN⟩ := (matches_lowNibble_iff rfl).1 h
    rw [decodeWord_eq_decodeSkeqReg hT]
    exact ⟨_, if_pos hN, rfl⟩
  | skneReg =>
    obtain ⟨hT, hN⟩ := (matches_lowNibble_iff rfl).1 h
    rw [decodeWord_eq_decodeSkneReg hT]
    exact ⟨_, if_pos hN, rfl⟩
  | movReg | orReg | andReg | xorReg | addReg | subReg | shr | rsb | shl =>
    obtain ⟨hT, hN⟩ := (matches_lowNibble_iff rfl).1 h
    rw [decodeWord_eq_decodeAlu hT, decodeAlu, hN]
    exact ⟨_, rfl, rfl⟩
  | skpr | skup =>
    obtain ⟨hT, hKK⟩ := (matches_lowByte_iff rfl).1 h
    rw [decodeWord_eq_decodeKey hT, decodeKey, hKK]
    exact ⟨_, rfl, rfl⟩
  | gdelay | key | sdelay | ssound | adi | font | bcd | str | ldr =>
    obtain ⟨hT, hKK⟩ := (matches_lowByte_iff rfl).1 h
    rw [decodeWord_eq_decodeMisc hT, decodeMisc, hKK]
    exact ⟨_, rfl, rfl⟩

theorem Instr.row_mem_opcodeRows (i : Instr) : i.row ∈ opcodeRows := by
  cases i <;> exact of_decide_eq_true rfl

/-- Every row is the row of an instruction: of the one its own pattern decodes to. -/
theorem exists_row_eq {r : OpcodeRow} (hr : r ∈ opcodeRows) : ∃ i : Instr, i.row = r := by
  have h : ∀ r ∈ opcodeRows, (decodeWord r.pattern).toOption.map Instr.row = some r := by decide
  obtain ⟨i, -, hi⟩ := Option.map_eq_some_iff.1 (h r hr)
  exact ⟨i, hi⟩

variable {r r' : OpcodeRow} {op : Word}

theorem matches_iff_exists_decodeWord (hr : r ∈ opcodeRows) :
    r.matches op = true ↔ ∃ i, decodeWord op = .ok i ∧ i.row = r := by
  constructor
  · intro h
    obtain ⟨j, rfl⟩ := exists_row_eq hr
    exact exists_decodeWord_of_row_matches h
  · rintro ⟨i, hi, rfl⟩
    rw [← encode_of_decodeWord hi]
    exact i.row_matches_encode

/-- The decoder reads one instruction, and an instruction is written in one row. -/
theorem opcodeRow_eq_of_matches (hr : r ∈ opcodeRows) (hr' : r' ∈ opcodeRows) (h : r.matches op = true)
    (h' : r'.matches op = true) : r = r' := by
  obtain ⟨i, hi, rfl⟩ := (matches_iff_exists_decodeWord hr).1 h
  obtain ⟨i', hi', rfl⟩ := (matches_iff_exists_decodeWord hr').1 h'
  rw [Except.ok.inj (hi.symm.trans hi')]

/-- The check by the map and the decoder accept the same words. -/
theorem wordWellFormed_iff : wordWellFormed op = true ↔ ∃ i, decodeWord op = .ok i := by
  rw [wordWellFormed, List.any_eq_true]
  constructor
  · rintro ⟨r, hr, h⟩
    obtain ⟨i, hi, -⟩ := (matches_iff_exists_decodeWord hr).1 h
    exact ⟨i, hi⟩
  · rintro ⟨i, hi⟩
    exact ⟨i.row, i.row_mem_opcodeRows, (matches_iff_exists_decodeWord i.row_mem_opcodeRows).2 ⟨i, hi, rfl⟩⟩

theorem wordWellFormed_eq_false_iff : wordWellFormed op = false ↔ ∃ e, decodeWord op = .error e := by
  rw [← Bool.not_eq_true, wordWellFormed_iff]
  cases decodeWord op <;> simp

end Rows

/-- Settles O3: a match is a decoding, and the decoder is a function. -/
theorem decoderFollowsTheOpcodeMap : Obligations.DecoderFollowsTheOpcodeMap :=
  ⟨fun _ _ => matches_iff_exists_decodeWord, Instr.row_mem_opcodeRows, fun _ _ _ => opcodeRow_eq_of_matches⟩

/-! ## The words in no row -/

section Unknown

variable {op : Word} {e : DecodeReject}

theorem toNat_fieldT : (fieldT op).toNat = op.toNat / 4096 := by
  rw [fieldT, BitVec.extractLsb'_toNat, Nat.shiftRight_eq_div_pow]
  omega

theorem toNat_fieldN : (fieldN op).toNat = op.toNat % 16 := BitVec.extractLsb'_toNat ..

theorem toNat_fieldKK : (fieldKK op).toNat = op.toNat % 256 := BitVec.extractLsb'_toNat ..

theorem fieldT_eq_iff {t : Nibble} : fieldT op = t ↔ op.toNat / 4096 = t.toNat := by
  rw [← toNat_fieldT, BitVec.toNat_inj]

theorem fieldN_eq_iff {n : Nibble} : fieldN op = n ↔ op.toNat % 16 = n.toNat := by
  rw [← toNat_fieldN, BitVec.toNat_inj]

theorem decodeSystem_eq_error_iff : decodeSystem op = .error e ↔
    .unknownSystem = e ∧ op ≠ 0x00E0#16 ∧ op ≠ 0x00EE#16 := by
  unfold decodeSystem
  split
  · simp [*]
  · split <;> simp [*]

theorem decodeSkeqReg_eq_error_iff : decodeSkeqReg op = .error e ↔ .unknownSkip = e ∧ op.toNat % 16 ≠ 0 := by
  have hN : fieldN op = 0x0#4 ↔ op.toNat % 16 = 0 := fieldN_eq_iff
  simp only [decodeSkeqReg, hN]
  split <;> simp [*]

theorem decodeSkneReg_eq_error_iff : decodeSkneReg op = .error e ↔ .unknownSkip = e ∧ op.toNat % 16 ≠ 0 := by
  have hN : fieldN op = 0x0#4 ↔ op.toNat % 16 = 0 := fieldN_eq_iff
  simp only [decodeSkneReg, hN]
  split <;> simp [*]

theorem decodeAlu_eq_error_iff : decodeAlu op = .error e ↔
    .unknownAlu = e ∧ op.toNat % 16 ∈ [0x8, 0x9, 0xA, 0xB, 0xC, 0xD, 0xF] := by
  unfold decodeAlu
  rw [toNat_fieldN]
  split
  case h_10 =>
    simp only [imp_false] at *
    have hmem : op.toNat % 16 ∈ [0x8, 0x9, 0xA, 0xB, 0xC, 0xD, 0xF] := by
      simp only [List.mem_cons]
      omega
    simp [hmem]
  all_goals simp [*]

theorem decodeKey_eq_error_iff : decodeKey op = .error e ↔ .unknownKey = e ∧ op.toNat % 256 ∉ [0x9E, 0xA1] := by
  unfold decodeKey
  rw [toNat_fieldKK]
  split
  case h_3 =>
    simp only [imp_false] at *
    simp [*]
  all_goals simp [*]

theorem decodeMisc_eq_error_iff : decodeMisc op = .error e ↔
    .unknownMisc = e ∧ op.toNat % 256 ∉ [0x07, 0x0A, 0x15, 0x18, 0x1E, 0x29, 0x33, 0x55, 0x65] := by
  unfold decodeMisc
  rw [toNat_fieldKK]
  split
  case h_10 =>
    simp only [imp_false] at *
    simp [*]
  all_goals simp [*]

/-- The set of words each name of a rejection stands for (R66). -/
def DecodeReject.Covers (op : Word) : DecodeReject → Prop
  | .unknownSystem => op.toNat ≤ 0x0FFF ∧ op ≠ 0x00E0#16 ∧ op ≠ 0x00EE#16
  | .unknownSkip => (op.toNat / 4096 = 0x5 ∨ op.toNat / 4096 = 0x9) ∧ op.toNat % 16 ≠ 0
  | .unknownAlu => op.toNat / 4096 = 0x8 ∧ op.toNat % 16 ∈ [0x8, 0x9, 0xA, 0xB, 0xC, 0xD, 0xF]
  | .unknownKey => op.toNat / 4096 = 0xE ∧ op.toNat % 256 ∉ [0x9E, 0xA1]
  | .unknownMisc =>
    op.toNat / 4096 = 0xF ∧ op.toNat % 256 ∉ [0x07, 0x0A, 0x15, 0x18, 0x1E, 0x29, 0x33, 0x55, 0x65]
  | .tooShort => False

theorem covers_of_decodeWord_eq_error (h : decodeWord op = .error e) : e.Covers op := by
  rcases decodeWord_cases op with hT | hT | hT | hT | hT | hT | ⟨i, hi, -⟩
  · obtain ⟨rfl, hop⟩ := decodeSystem_eq_error_iff.1 ((decodeWord_eq_decodeSystem hT).symm.trans h)
    have hdiv : op.toNat / 4096 = 0 := fieldT_eq_iff.1 hT
    exact ⟨by omega, hop⟩
  · obtain ⟨rfl, hN⟩ := decodeSkeqReg_eq_error_iff.1 ((decodeWord_eq_decodeSkeqReg hT).symm.trans h)
    exact ⟨.inl (fieldT_eq_iff.1 hT), hN⟩
  · obtain ⟨rfl, hN⟩ := decodeAlu_eq_error_iff.1 ((decodeWord_eq_decodeAlu hT).symm.trans h)
    exact ⟨fieldT_eq_iff.1 hT, hN⟩
  · obtain ⟨rfl, hN⟩ := decodeSkneReg_eq_error_iff.1 ((decodeWord_eq_decodeSkneReg hT).symm.trans h)
    exact ⟨.inr (fieldT_eq_iff.1 hT), hN⟩
  · obtain ⟨rfl, hKK⟩ := decodeKey_eq_error_iff.1 ((decodeWord_eq_decodeKey hT).symm.trans h)
    exact ⟨fieldT_eq_iff.1 hT, hKK⟩
  · obtain ⟨rfl, hKK⟩ := decodeMisc_eq_error_iff.1 ((decodeWord_eq_decodeMisc hT).symm.trans h)
    exact ⟨fieldT_eq_iff.1 hT, hKK⟩
  · cases hi.symm.trans h

theorem decodeWord_eq_error_of_covers (h : e.Covers op) : decodeWord op = .error e := by
  cases e with
  | unknownSystem =>
    obtain ⟨hle, hop⟩ := h
    have hdiv : op.toNat / 4096 = 0 := by omega
    exact (decodeWord_eq_decodeSystem (fieldT_eq_iff.2 hdiv)).trans (decodeSystem_eq_error_iff.2 ⟨rfl, hop⟩)
  | unknownSkip =>
    obtain ⟨hT | hT, hN⟩ := h
    · exact (decodeWord_eq_decodeSkeqReg (fieldT_eq_iff.2 hT)).trans (decodeSkeqReg_eq_error_iff.2 ⟨rfl, hN⟩)
    · exact (decodeWord_eq_decodeSkneReg (fieldT_eq_iff.2 hT)).trans (decodeSkneReg_eq_error_iff.2 ⟨rfl, hN⟩)
  | unknownAlu =>
    obtain ⟨hT, hN⟩ := h
    exact (decodeWord_eq_decodeAlu (fieldT_eq_iff.2 hT)).trans (decodeAlu_eq_error_iff.2 ⟨rfl, hN⟩)
  | unknownKey =>
    obtain ⟨hT, hKK⟩ := h
    exact (decodeWord_eq_decodeKey (fieldT_eq_iff.2 hT)).trans (decodeKey_eq_error_iff.2 ⟨rfl, hKK⟩)
  | unknownMisc =>
    obtain ⟨hT, hKK⟩ := h
    exact (decodeWord_eq_decodeMisc (fieldT_eq_iff.2 hT)).trans (decodeMisc_eq_error_iff.2 ⟨rfl, hKK⟩)
  | tooShort => exact h.elim

theorem decodeWord_eq_error_iff : decodeWord op = .error e ↔ e.Covers op :=
  ⟨covers_of_decodeWord_eq_error, decodeWord_eq_error_of_covers⟩

end Unknown

/-- Settles O4: each set is what its name covers, and no word is too short. -/
theorem unknownWordsAreTheFiveSets : Obligations.UnknownWordsAreTheFiveSets := fun _ =>
  ⟨decodeWord_eq_error_iff (e := .unknownSystem), decodeWord_eq_error_iff (e := .unknownSkip),
    decodeWord_eq_error_iff (e := .unknownAlu), decodeWord_eq_error_iff (e := .unknownKey),
    decodeWord_eq_error_iff (e := .unknownMisc), mt (decodeWord_eq_error_iff (e := .tooShort)).1 id,
    wordWellFormed_eq_false_iff⟩

/-- Settles O5: closed words, each run through the decoder. -/
theorem wordsOfTheSpecDecodeAsWritten : Obligations.WordsOfTheSpecDecodeAsWritten := by
  unfold Obligations.WordsOfTheSpecDecodeAsWritten
  decide

end Sys2Proof

namespace Sys2Proof.Machine

/-! ## An unknown opcode halts -/

/-- A fetch from RAM of a word that is no instruction halts, the word latched (R66, R175). -/
theorem State.instrStep_eq_halt {s : State} {e : DecodeReject} (hpc : s.pc.toNat ≤ 0xFFE)
    (he : decodeWord s.wordAtPc = .error e) :
    s.instrStep = .next (State.halt { s with opcode := s.wordAtPc } .unknownOpcode) := by
  rcases State.instrStep_cases (s := s) rfl with ⟨hout, -⟩ | ⟨-, op, rfl, ⟨-, -, hr⟩ | ⟨i, hi, -⟩⟩
  · omega
  · exact hr
  · cases hi.symm.trans he

/-- More pieces of state may be let differ. -/
theorem SameBut.mono {parts rest : List Part} {s t : State} (h : SameBut parts s t) (hsub : parts ⊆ rest) :
    SameBut rest s t := fun p hp => h p (mt (@hsub p) hp)

/-- A halt with the gate closed behind it writes the halt registers, RUN and GATE alone (R161, R163, R176). -/
theorem SameBut.haltGateClosed {parts : List Part} {s t : State} (h : SameBut parts s t) (c : HaltCause) :
    SameBut (.haltRegs :: .run :: .gate :: parts) s { t.halt c with gate := false } := by
  intro p hp
  simp only [List.mem_cons, not_or] at hp
  obtain ⟨hhalt, hrun, hgate, hparts⟩ := hp
  have hsame := h p hparts
  cases p with
  | haltRegs => exact absurd rfl hhalt
  | run => exact absurd rfl hrun
  | gate => exact absurd rfl hgate
  | _ => exact hsame

/-- Settles O20: the sampled state latches the word and halts, and the gate closes behind the halt. -/
theorem unknownOpcodeHalts : Obligations.UnknownOpcodeHalts := by
  intro s tmr cpu stop rnd hexec hpc hword
  obtain ⟨e, he⟩ := wordWellFormed_eq_false_iff.1 hword
  have hhalt := State.instrStep_eq_halt (s := s.sampled tmr cpu stop rnd) (by simpa using hpc) (by simpa using he)
  rw [State.sampled_wordAtPc] at hhalt
  have hsame := ((s.sampled_sameBut tmr cpu stop rnd).withOpcode s.wordAtPc).haltGateClosed .unknownOpcode
  exact ⟨_, (step_of_executes hexec).trans (congrArg closeGate hhalt), ⟨rfl, s.sampled_pc tmr cpu stop rnd, rfl, rfl⟩,
    rfl, rfl, s.sampled_tickPerformed tmr cpu stop rnd, hsame.mono (by decide)⟩

end Sys2Proof.Machine
end

section
/-! SUPPORT. The frames of the operations that the flow instructions are made of; then the settled statements of
spec/40_flow_0_1_2.md. -/

namespace Sys2Proof.Machine

/-! ## One frame per operation -/

theorem Part.same_refl (p : Part) (s : State) : p.same s s := by
  cases p with
  | regs | ram | vram => exact fun _ => rfl
  | stack => exact ⟨rfl, rfl⟩
  | haltRegs | strobes | inputs => exact ⟨rfl, rfl, rfl⟩
  | i | pc | dt | st | opcode | run | gate | attached | params => rfl

theorem SameBut.refl (s : State) : SameBut [] s s := fun p _ => p.same_refl s

/-- Setting PC after other changes lets PC differ too (R15). -/
theorem SameBut.setPc {parts : List Part} {s t : State} (h : SameBut parts s t) (w : Word) :
    SameBut (parts ++ [.pc]) s (t.setPc w) := by
  intro p hp
  obtain ⟨hparts, hpc⟩ := not_or.1 (mt List.mem_append.2 hp)
  have hsame := h p hparts
  cases p with
  | pc => exact absurd List.mem_cons_self hpc
  | _ => exact hsame

theorem State.clearVram_sameBut (s : State) : SameBut [.vram] s s.clearVram := by
  intro p hp
  have hsame := p.same_refl s
  cases p with
  | vram => exact absurd List.mem_cons_self hp
  | _ => exact hsame

theorem State.withStack_sameBut (s : State) (stack : Vector Word 16) (sp : BitVec 4) :
    SameBut [.stack] s { s with stack := stack, sp := sp } := by
  intro p hp
  have hsame := p.same_refl s
  cases p with
  | stack => exact absurd List.mem_cons_self hp
  | _ => exact hsame

/-! ## Clear screen, jump -/

/-- Settles O31: CLS raises no halt; it completes by emptying VRAM, then advancing PC. -/
theorem clsClearsTheFramebuffer : Obligations.ClsClearsTheFramebuffer :=
  ⟨decodeWord_encode .cls, fun s => ⟨s.completed .cls, exec_of_haltTable_none rfl, fun k _ => s.vramByte_clearVram k,
    s.completed_pc_toNat .cls, s.clearVram_sameBut.setPc _⟩⟩

/-- Settles O33: JMP raises no halt; it completes by setting PC. -/
theorem jmpSetsThePc : Obligations.JmpSetsThePc :=
  ⟨fun nnn => decodeWord_encode (.jmp nnn), fun s nnn => ⟨s.completed (.jmp nnn), exec_of_haltTable_none rfl,
    s.completed_pc_toNat (.jmp nnn), (SameBut.refl s).setPc _⟩⟩

/-! ## Return, call -/

theorem State.completed_rts_sameBut (s : State) : SameBut [.stack, .pc] s (s.completed .rts) :=
  (s.withStack_sameBut s.stack (s.sp - 1#4)).setPc _

theorem State.completed_jsr_sameBut (s : State) (nnn : Addr) : SameBut [.stack, .pc] s (s.completed (.jsr nnn)) :=
  (s.withStack_sameBut (s.stack.set s.sp.toNat (s.pc + 2#16) s.sp.isLt) (s.sp + 1#4)).setPc (Word.ofAddr nnn)

/-- SP above the slot k points at that slot once it is one less (R81). -/
theorem sp_sub_one_toNat {sp : BitVec 4} {k : Nat} (h : sp.toNat = k + 1) : (sp - 1#4).toNat = k := by
  bv_omega

/-- SP does not wrap where a push is allowed (R83). -/
theorem sp_add_one_toNat {sp : BitVec 4} (h : sp ≠ 15#4) : (sp + 1#4).toNat = sp.toNat + 1 := by
  bv_omega

/-- An address fits in PC: nothing is reduced. -/
@[simp] theorem ofAddr_toNat (nnn : Addr) : (Word.ofAddr nnn).toNat = nnn.toNat :=
  BitVec.toNat_setWidth_of_le (by decide)

/-- Settles O32: with SP above slot k no halt is tabled and that slot is popped; with SP = 0 the halt is tabled. -/
theorem rtsPopsThePc : Obligations.RtsPopsThePc := by
  refine ⟨decodeWord_encode .rts, fun s k hk hsp => ?_, fun s hsp => ?_⟩
  · have hne : s.sp ≠ 0#4 := fun h0 => by simp [h0] at hsp
    have htop : (s.sp - 1#4).toNat = k := sp_sub_one_toNat hsp
    have hpc : (s.completed .rts).pc = s.stack[k] := getElem_congr_idx htop
    exact ⟨s.completed .rts, exec_of_haltTable_none (if_neg hne), htop, hpc, rfl, s.completed_rts_sameBut⟩
  · exact haltsWith_of_exec_eq_halt (c := .stackUnderflow) (exec_of_haltTable_some (if_pos hsp))

/-- A completed JSR leaves the return address in the slot SP pointed at, and every other slot as it was (R83). -/
theorem State.completed_jsr_slot (s : State) (nnn : Addr) {k : Nat} (hk : k < 16) :
    ((s.completed (.jsr nnn)).stack[k]).toNat =
      if k = s.sp.toNat then (s.pc.toNat + 2) % 65536 else (s.stack[k]).toNat := by
  split
  case isTrue h =>
    subst h
    exact (congrArg BitVec.toNat (Vector.getElem_set_self s.sp.isLt)).trans (BitVec.toNat_add ..)
  case isFalse h => rw [s.completed_stack_getElem (.jsr nnn) hk h]

/-- Settles O34: with SP not 15 no halt is tabled and the call pushes and jumps; with SP = 15 the halt is tabled. -/
theorem jsrPushesTheReturnAddress : Obligations.JsrPushesTheReturnAddress := by
  refine ⟨fun nnn => decodeWord_encode (.jsr nnn), fun s nnn hsp => ?_, fun s nnn hsp => ?_⟩
  · exact ⟨s.completed (.jsr nnn), exec_of_haltTable_none (if_neg hsp), sp_add_one_toNat hsp, ofAddr_toNat nnn,
      fun _ hk => s.completed_jsr_slot nnn hk, s.completed_jsr_sameBut nnn⟩
  · exact haltsWith_of_exec_eq_halt (c := .stackOverflow) (exec_of_haltTable_some (if_pos hsp))

/-- Settles O35: the slot the call filled, one below SP after it, is the slot the return pops. -/
theorem jsrThenRtsResumesAfterTheCall : Obligations.JsrThenRtsResumesAfterTheCall := by
  intro s t u nnn hsp hcall husp hustack
  obtain ⟨-, hpush, -⟩ := jsrPushesTheReturnAddress
  obtain ⟨-, hpop, -⟩ := rtsPopsThePc
  obtain ⟨t', hcall', htsp, -, hslots, -⟩ := hpush s nnn hsp
  cases hcall.symm.trans hcall'
  obtain ⟨w, hret, hwsp, hwpc, -⟩ := hpop u s.sp.toNat s.sp.isLt (husp ▸ htsp)
  have hpc : w.pc.toNat = (s.pc.toNat + 2) % 65536 := by
    simpa only [hwpc, hustack, if_pos] using hslots s.sp.toNat s.sp.isLt
  exact ⟨w, hret, hpc, BitVec.eq_of_toNat_eq hwsp⟩

end Sys2Proof.Machine
end

section
/-! SUPPORT. What an instruction does whose completion writes PC alone, and the decoding of the two skip families whose
low nibble is fixed; then the settled statements of spec/41_skips_3_4_5_9.md. -/

namespace Sys2Proof.Machine

/-! ## Instructions that write PC alone -/

/-- An instruction that raises no halt and completes by setting PC moves it as tabled (R15), and writes nothing else. -/
theorem movesPcTo_pcTable {i : Instr} {s : State} {w : Word} (hhalt : haltTable s i = none)
    (hset : s.completed i = s.setPc w) : MovesPcTo i s (pcTable s i) := by
  have hsame : SameBut [.pc] s (s.completed i) := hset ▸ (SameBut.refl s).setPc w
  exact ⟨s.completed i, exec_of_haltTable_none hhalt, s.completed_pc_toNat i, hsame⟩

/-! ## Skips on an immediate -/

/-- Settles O36: the target is the tabled one (R15), read with the two bytes compared by value. -/
theorem skipsOnImmediateCompare : Obligations.SkipsOnImmediateCompare := by
  refine ⟨fun x kk => ⟨decodeWord_encode (.skeqImm x kk), decodeWord_encode (.skneImm x kk)⟩, fun s x kk => ?_⟩
  simp only [BitVec.toNat_inj]
  refine ⟨movesPcTo_pcTable rfl rfl, ?_⟩
  rw [← ite_not]
  exact movesPcTo_pcTable rfl rfl

/-! ## Skips on two registers -/

/-- A word of family 5 or 9 whose low nibble is not 0 is no instruction (R66, R94). -/
theorem decodeWord_encodeXYN_unknownSkip {t n : Nibble} (x y : Nibble) (ht : t = 0x5#4 ∨ t = 0x9#4) (hn : n ≠ 0x0#4) :
    decodeWord (encodeXYN t x y n) = .error .unknownSkip := by
  have hN : fieldN (encodeXYN t x y n) ≠ 0x0#4 := by rwa [fieldN_encodeXYN]
  rcases ht with rfl | rfl
  · exact (decodeWord_eq_decodeSkeqReg (fieldT_encodeXYN ..)).trans (if_neg hN)
  · exact (decodeWord_eq_decodeSkneReg (fieldT_encodeXYN ..)).trans (if_neg hN)

/-- Settles O37: as for O36, with the byte of a second register; the decoder checks the low nibble. -/
theorem skipsOnRegisterCompare : Obligations.SkipsOnRegisterCompare := by
  refine ⟨fun x y => ⟨decodeWord_encode (.skeqReg x y), decodeWord_encode (.skneReg x y)⟩,
    fun x y n hn => ⟨decodeWord_encodeXYN_unknownSkip x y (.inl rfl) hn,
      decodeWord_encodeXYN_unknownSkip x y (.inr rfl) hn⟩, fun s x y => ?_⟩
  simp only [BitVec.toNat_inj]
  refine ⟨movesPcTo_pcTable rfl rfl, ?_⟩
  rw [← ite_not]
  exact movesPcTo_pcTable rfl rfl

end Sys2Proof.Machine
end

section
/-! SUPPORT. What an instruction does whose completion writes one general register and advances PC; then the settled
statements of spec/42_immediate_6_7.md. -/

namespace Sys2Proof.Machine

/-! ## Instructions that write one general register -/

theorem State.setReg_sameBut (s : State) (x : Nibble) (b : Byte) : SameBut [.regs] s (s.setReg x b) := by
  intro p hp
  have hsame := p.same_refl s
  cases p with
  | regs => exact absurd List.mem_cons_self hp
  | _ => exact hsame

theorem State.setReg_advance_sameBut (s : State) (x : Nibble) (b : Byte) :
    SameBut [.regs, .pc] s (s.setReg x b).advance :=
  (s.setReg_sameBut x b).setPc _

theorem State.advance_pcAdvances (s : State) : PcAdvances s s.advance 2 := BitVec.toNat_add ..

/-- An instruction that raises no halt and completes by writing one register and advancing PC leaves that byte. -/
theorem setsReg_toNat {i : Instr} {s : State} {x : Nibble} {b : Byte} (hhalt : haltTable s i = none)
    (hset : s.completed i = (s.setReg x b).advance) : SetsReg i s x b.toNat := by
  have hexec : exec i s = .next (s.setReg x b).advance := hset ▸ exec_of_haltTable_none hhalt
  exact ⟨_, hexec, congrArg BitVec.toNat (s.reg_setReg_self x b), (s.setReg x b).advance_pcAdvances,
    s.setReg_advance_regsSameBut x b, s.setReg_advance_sameBut x b⟩

/-! ## Load immediate, add immediate -/

/-- Settles O38: the byte written is the immediate itself. -/
theorem movImmediateLoadsTheByte : Obligations.MovImmediateLoadsTheByte :=
  ⟨fun x kk => decodeWord_encode (.movImm x kk), fun _ _ _ => setsReg_toNat rfl rfl⟩

/-- Settles O39: the byte written is the 8-bit sum, which wraps modulo 256; VF is written only as V[x] with x = F. -/
theorem addImmediateWrapsWithoutFlag : Obligations.AddImmediateWrapsWithoutFlag := by
  refine ⟨fun x kk => decodeWord_encode (.addImm x kk), fun s x kk => ?_⟩
  have hsum : (s.reg x + kk).toNat = ((s.reg x).toNat + kk.toNat) % 256 := BitVec.toNat_add ..
  rw [← hsum]
  exact setsReg_toNat rfl rfl

end Sys2Proof.Machine
end

section
/-! SUPPORT. What an instruction does whose completion writes a flag, then its result, and advances PC; the flags and
the results of the ALU as numbers. Then the settled statements of spec/43_alu_8.md. -/

namespace Sys2Proof.Machine

/-! ## Instructions that write a flag, then their result -/

theorem Part.same_trans {p : Part} {s t u : State} (h : p.same s t) (h' : p.same t u) : p.same s u := by
  cases p with
  | regs | ram | vram => exact fun k => (h' k).trans (h k)
  | stack =>
    obtain ⟨hsp, hstack⟩ := h
    obtain ⟨hsp', hstack'⟩ := h'
    exact ⟨hsp'.trans hsp, hstack'.trans hstack⟩
  | haltRegs | strobes | inputs =>
    obtain ⟨h₁, h₂, h₃⟩ := h
    obtain ⟨h₁', h₂', h₃'⟩ := h'
    exact ⟨h₁'.trans h₁, h₂'.trans h₂, h₃'.trans h₃⟩
  | i | pc | dt | st | opcode | run | gate | attached | params => exact h'.trans h

theorem SameBut.trans {parts : List Part} {s t u : State} (h : SameBut parts s t) (h' : SameBut parts t u) :
    SameBut parts s u :=
  fun p hp => Part.same_trans (h p hp) (h' p hp)

theorem State.writeFlagged_sameBut (s : State) (x : Nibble) (f b : Byte) : SameBut [.regs] s (s.writeFlagged x f b) :=
  (s.setReg_sameBut vf f).trans ((s.setReg vf f).setReg_sameBut x b)

/-- An instruction that raises no halt and completes by the two writes of R105, then advancing PC, leaves the result in
V[x], and the flag in VF where x is not F. -/
theorem setsRegAndFlag_toNat {i : Instr} {s : State} {x : Nibble} {f b : Byte} (hhalt : haltTable s i = none)
    (hset : s.completed i = (s.writeFlagged x f b).advance) : SetsRegAndFlag i s x f.toNat b.toNat := by
  have hexec : exec i s = .next (s.writeFlagged x f b).advance := hset ▸ exec_of_haltTable_none hhalt
  exact ⟨_, hexec, congrArg BitVec.toNat (s.reg_writeFlagged_result x f b),
    fun hx => congrArg BitVec.toNat (s.reg_writeFlagged_flag f b hx), (s.writeFlagged x f b).advance_pcAdvances,
    s.writeFlagged_advance_regsSameBut x f b, (s.writeFlagged_sameBut x f b).setPc _⟩

/-! ## Flags and results as numbers -/

section Numbers

variable (a b : Byte)

theorem carryFlag_toNat : (carryFlag a b).toNat = if a.toNat + b.toNat > 255 then 1 else 0 := by
  rw [carryFlag_eq, apply_ite BitVec.toNat]; rfl

theorem notBorrowFlag_toNat : (notBorrowFlag a b).toNat = if a.toNat ≥ b.toNat then 1 else 0 := by
  rw [notBorrowFlag_eq, apply_ite BitVec.toNat]; rfl

/-- The difference with its borrow added first, so that it is one of natural numbers (R111, R113). -/
theorem byte_sub_toNat : (a - b).toNat = (a.toNat + 256 - b.toNat) % 256 := by
  have hb : 256 - b.toNat + a.toNat = a.toNat + 256 - b.toNat := by have := b.isLt; omega
  exact (BitVec.toNat_sub ..).trans (congrArg (· % 256) hb)

theorem byte_ushiftRight_one_toNat : (a >>> 1).toNat = a.toNat / 2 := BitVec.toNat_ushiftRight ..

theorem byte_shiftLeft_one_toNat : (a <<< 1).toNat = 2 * a.toNat % 256 := by
  rw [BitVec.toNat_shiftLeft, Nat.shiftLeft_eq, Nat.mul_comm]

end Numbers

/-! ## Copy, OR, AND, XOR -/

/-- Settles O40: one register is written, with the byte copied or combined bit by bit; VF only as V[x] with x = F. -/
theorem copyAndLogicSetNoFlag : Obligations.CopyAndLogicSetNoFlag := by
  refine ⟨fun x y => ⟨decodeWord_encode (.movReg x y), decodeWord_encode (.orReg x y),
    decodeWord_encode (.andReg x y), decodeWord_encode (.xorReg x y)⟩, fun s x y => ?_⟩
  rw [← BitVec.toNat_or, ← BitVec.toNat_and, ← BitVec.toNat_xor]
  exact ⟨setsReg_toNat rfl rfl, setsReg_toNat rfl rfl, setsReg_toNat rfl rfl, setsReg_toNat rfl rfl⟩

/-! ## Addition, subtraction -/

/-- Settles O41: the flag is the carry of the untruncated sum, the result the 8-bit sum. -/
theorem addSetsTheCarry : Obligations.AddSetsTheCarry := by
  refine ⟨fun x y => decodeWord_encode (.addReg x y), fun s x y => ?_⟩
  have hsum : (s.reg x + s.reg y).toNat = ((s.reg x).toNat + (s.reg y).toNat) % 256 := BitVec.toNat_add ..
  rw [← carryFlag_toNat, ← hsum]
  exact setsRegAndFlag_toNat rfl rfl

/-- Settles O42: the flag is the not-borrow of the two operands in the order subtracted, the result their 8-bit
difference. -/
theorem subtractionsSetTheNotBorrow : Obligations.SubtractionsSetTheNotBorrow := by
  refine ⟨fun x y => ⟨decodeWord_encode (.subReg x y), decodeWord_encode (.rsb x y)⟩, fun s x y => ?_⟩
  simp only [← notBorrowFlag_toNat, ← byte_sub_toNat]
  exact ⟨setsRegAndFlag_toNat rfl rfl, setsRegAndFlag_toNat rfl rfl⟩

/-! ## Shifts -/

/-- Settles O43: the flag is the lowest or the highest bit as a number, the result the byte shifted by one; the
completion does not name Y. -/
theorem shiftsSetTheBitShiftedOut : Obligations.ShiftsSetTheBitShiftedOut := by
  refine ⟨fun x y => ⟨decodeWord_encode (.shr x y), decodeWord_encode (.shl x y)⟩, fun s x y => ?_⟩
  rw [← lowBitFlag_toNat, ← byte_ushiftRight_one_toNat, ← highBitFlag_toNat, ← byte_shiftLeft_one_toNat]
  exact ⟨setsRegAndFlag_toNat rfl rfl, setsRegAndFlag_toNat rfl rfl⟩

end Sys2Proof.Machine
end

section
/-! SUPPORT. What an instruction does whose completion writes I and advances PC; then the settled statements of
spec/44_index_jump_random_A_B_C.md. -/

namespace Sys2Proof.Machine

/-! ## Instructions that write I -/

theorem State.setI_sameBut (s : State) (w : Word) : SameBut [.i] s (s.setI w) := by
  intro p hp
  have hsame := p.same_refl s
  cases p with
  | i => exact absurd List.mem_cons_self hp
  | _ => exact hsame

/-- An instruction that raises no halt and completes by setting I and advancing PC leaves that word in I. -/
theorem setsI_toNat {i : Instr} {s : State} {w : Word} (hhalt : haltTable s i = none)
    (hset : s.completed i = (s.setI w).advance) : SetsI i s w.toNat := by
  have hexec : exec i s = .next (s.setI w).advance := hset ▸ exec_of_haltTable_none hhalt
  exact ⟨_, hexec, rfl, (s.setI w).advance_pcAdvances, (s.setI_sameBut w).setPc _⟩

/-! ## Load the address register, indexed jump, random byte -/

/-- Settles O44: the word written is the address field, which fits in I unreduced. -/
theorem mviLoadsTheAddressRegister : Obligations.MviLoadsTheAddressRegister := by
  refine ⟨fun nnn => decodeWord_encode (.mvi nnn), fun s nnn => ?_⟩
  rw [← ofAddr_toNat]
  exact setsI_toNat rfl rfl

/-- Settles O45: the target is the tabled one (R15), the sum of NNN and V[0], with no mask on it. -/
theorem jmiJumpsIndexedByV0 : Obligations.JmiJumpsIndexedByV0 :=
  ⟨fun nnn => decodeWord_encode (.jmi nnn), fun _ _ => movesPcTo_pcTable rfl rfl⟩

/-- Settles O46: the byte written is the sampled one masked bit by bit, whatever was sampled. -/
theorem randMasksTheRandomByte : Obligations.RandMasksTheRandomByte := by
  refine ⟨fun x kk => decodeWord_encode (.rand x kk), fun s x kk rnd => ?_⟩
  rw [← BitVec.toNat_and]
  exact setsReg_toNat rfl rfl

end Sys2Proof.Machine
end

section
/-! SUPPORT. The two range checks of a sprite, each as the halt it makes, and the second with the inclusive wrap as a
bound on the corner and the height; then the settled statements of spec/45_sprite_D.md. -/

namespace Sys2Proof.Machine

/-- The first check of R127: at least one row, and the last row beyond RAM, halts with code 4. -/
theorem sprite_haltsWith_of_rows_beyondRam {s : State} {x y n : Nibble} (hn : n.toNat ≥ 1)
    (hrows : s.i.toNat + n.toNat - 1 > 0xFFF) : HaltsWith (.sprite x y n) s 4#3 :=
  haltsWith_of_exec_eq_halt (c := .addrOutOfRange) (exec_of_haltTable_some (if_pos ⟨hn, hrows⟩))

/-- With the inclusive wrap and at least one row, the last column and the last row alone decide the second check
(R127). -/
theorem spriteInGrid_claim_iff_of_inclusive {s : State} {x0 y0 n : Nat} (hp : s.params.spriteWrapInclusive = true)
    (hn : n ≥ 1) : SpriteInGrid s x0 y0 n ↔ x0 ≤ 120 ∧ y0 + n ≤ 64 :=
  (spriteInGrid_iff_claim s x0 y0 n).symm.trans
    ((spriteInGrid_iff_of_inclusive hp x0 y0 n).trans (forall_prop_of_true hn))

/-- Settles O48: the table of causes puts the RAM check first, then the grid check; with neither halt tabled the draw
completes. -/
theorem spriteOutOfRangeHaltsBeforeDrawing : Obligations.SpriteOutOfRangeHaltsBeforeDrawing := by
  intro s x y n
  refine ⟨sprite_haltsWith_of_rows_beyondRam, sprite_haltsWith_of_not_inGrid,
    fun hn hp => spriteInGrid_claim_iff_of_inclusive hp hn, fun hfits => ?_⟩
  have hnone := (haltTable_sprite_eq_none_iff s x y n).2 hfits
  exact ⟨s.completed (.sprite x y n), exec_of_haltTable_none hnone, s.completed_sprite_sameBut x y n⟩

end Sys2Proof.Machine
end

section
/-! SUPPORT. The settled statement of spec/46_keys_E.md. -/

namespace Sys2Proof.Machine

/-- Settles O51: no halt is tabled for the three, the completion moves PC to the tabled address (R15), and none of them
reads V[X]. -/
theorem keyStubsOnlyMoveThePc : Obligations.KeyStubsOnlyMoveThePc :=
  ⟨fun x => ⟨decodeWord_encode (.skpr x), decodeWord_encode (.skup x), decodeWord_encode (.key x)⟩,
    fun _ _ => ⟨movesPcTo_pcTable rfl rfl, movesPcTo_pcTable rfl rfl, movesPcTo_pcTable rfl rfl⟩⟩

end Sys2Proof.Machine
end

section
/-! SUPPORT. Instructions that write one timer, I, or a block of RAM or of the registers, each by what its completion
leaves; then the settled statements of spec/47_misc_F.md. -/

namespace Sys2Proof.Machine

/-! ## Timers -/

theorem State.setDt_sameBut (s : State) (b : Byte) : SameBut [.dt] s (s.setDt b) := by
  intro p hp
  have hsame := p.same_refl s
  cases p with
  | dt => exact absurd List.mem_cons_self hp
  | _ => exact hsame

theorem State.setSt_sameBut (s : State) (b : Byte) : SameBut [.st] s (s.setSt b) := by
  intro p hp
  have hsame := p.same_refl s
  cases p with
  | st => exact absurd List.mem_cons_self hp
  | _ => exact hsame

/-- Settles O52: no halt is tabled for the three; each completes by one write and an advance. -/
theorem timerAccessesMoveOneByte : Obligations.TimerAccessesMoveOneByte := by
  refine ⟨fun x => ⟨decodeWord_encode (.gdelay x), decodeWord_encode (.sdelay x), decodeWord_encode (.ssound x)⟩,
    fun s x => ⟨setsReg_toNat rfl rfl, ?_, ?_⟩⟩
  · exact ⟨s.completed (.sdelay x), exec_of_haltTable_none rfl, rfl, s.completed_pc_toNat (.sdelay x),
      (s.setDt_sameBut (s.reg x)).setPc _⟩
  · exact ⟨s.completed (.ssound x), exec_of_haltTable_none rfl, rfl, s.completed_pc_toNat (.ssound x),
      (s.setSt_sameBut (s.reg x)).setPc _⟩

/-! ## The address register -/

/-- A byte added to a word wraps at 16 bits (R144). -/
theorem word_add_ofByte_toNat (w : Word) (b : Byte) : (w + Word.ofByte b).toNat = (w.toNat + b.toNat) % 65536 := by
  rw [BitVec.toNat_add, Word.ofByte, BitVec.toNat_setWidth_of_le (by decide)]

/-- Settles O53: the word written is the 16-bit sum, or the glyph's address. -/
theorem addressRegisterArithmetic : Obligations.AddressRegisterArithmetic := by
  refine ⟨fun x => ⟨decodeWord_encode (.adi x), decodeWord_encode (.font x)⟩, fun s x => ?_⟩
  rw [← word_add_ofByte_toNat, ← glyphAddr_toNat]
  exact ⟨setsI_toNat rfl rfl, setsI_toNat rfl rfl⟩

/-! ## Halts the table gives -/

/-- An instruction for which the table has a code makes the halt entry with that code (R175, R176, R177). -/
theorem haltsWith_of_haltTable {i : Instr} {s : State} {code : BitVec 3} (h : haltTable s i = some code) :
    HaltsWith i s code := by
  rcases exec_cases i s with ⟨c, hc, he⟩ | ⟨hn, -⟩
  · cases hc.symm.trans h
    exact haltsWith_of_exec_eq_halt he
  · cases hn.symm.trans h

/-! ## Decimal digits -/

theorem State.withRam_sameBut (s : State) (m : Memory) : SameBut [.ram] s { s with ram := m } := by
  intro p hp
  have hsame := p.same_refl s
  cases p with
  | ram => exact absurd List.mem_cons_self hp
  | _ => exact hsame

section Bcd

variable {s : State} (x : Nibble) (h : s.dataAddr 2 ≤ 0xFFF)
include h

theorem State.bcdDigits_inRam : s.dataAddr 0 + (bcdDigits (s.reg x)).length ≤ Config.ramSize := by
  change s.i.toNat + 0 + 3 ≤ 4096
  simp only [State.dataAddr] at h
  omega

/-- A completed BCD leaves digit k at I + k, the hundreds being digit 0 (R147). -/
theorem State.ramByte_completed_bcd_digit {k : Nat} (hk : k < 3) :
    (s.completed (.bcd x)).ramByte (s.dataAddr k) = (bcdDigits (s.reg x))[k] := by
  refine (s.ramByte_setRamBytes _ (s.dataAddr 0) _ (State.bcdDigits_inRam x h)).trans ?_
  rw [dif_pos ⟨Nat.le_add_right .., Nat.add_lt_add_left hk _⟩]
  exact getElem_congr_idx (Nat.add_sub_cancel_left ..)

/-- A completed BCD leaves every byte outside its three addresses (R147). -/
theorem State.ramByte_completed_bcd_outside {a : Nat} (ha : a < s.dataAddr 0 ∨ s.dataAddr 2 < a) :
    (s.completed (.bcd x)).ramByte a = s.ramByte a := by
  refine (s.ramByte_setRamBytes _ (s.dataAddr 0) a (State.bcdDigits_inRam x h)).trans (dif_neg ?_)
  simp only [State.dataAddr, bcdDigits, List.length_cons, List.length_nil] at ha ⊢
  omega

end Bcd

/-- Settles O54: with the third address in RAM no halt is tabled and the digits are written; else the halt is tabled. -/
theorem bcdStoresThreeDigits : Obligations.BcdStoresThreeDigits := by
  refine ⟨fun x => decodeWord_encode (.bcd x), fun _ _ => rfl, fun s x => ⟨fun h => ?_, fun h => ?_⟩⟩
  · have hdigit (k : Nat) (hk : k < 3) := congrArg BitVec.toNat (State.ramByte_completed_bcd_digit x h hk)
    have hfits (n : Nat) (hn : n < 256) : (BitVec.ofNat 8 n).toNat = n := Nat.mod_eq_of_lt hn
    have hbyte := (s.reg x).isLt
    exact ⟨s.completed (.bcd x), exec_of_haltTable_none (if_neg (Nat.not_lt.2 h)),
      (hdigit 0 (by decide)).trans (hfits _ (by omega)), (hdigit 1 (by decide)).trans (hfits _ (by omega)),
      (hdigit 2 (by decide)).trans (hfits _ (by omega)), fun _ => State.ramByte_completed_bcd_outside x h,
      s.completed_pc_toNat (.bcd x), (s.withRam_sameBut _).setPc _⟩
  · exact haltsWith_of_haltTable (if_pos h)

/-! ## Register blocks -/

/-- What RAM reads as after a completed STR whose last address is in RAM (R148). -/
theorem State.ramByte_completed_str {s : State} {x : Nibble} (h : s.blockBase + x.toNat ≤ 0xFFF) (a : Nat) :
    (s.completed (.str x)).ramByte a =
      if s.blockBase ≤ a ∧ a < s.blockBase + (x.toNat + 1) then s.reg (BitVec.ofNat 4 (a - s.blockBase))
      else s.ramByte a :=
  s.ramByte_storeBlock s.blockBase (x.toNat + 1) a (by omega)

/-- Settles O55: with the last address in RAM no halt is tabled and the block is stored; else the halt is tabled. -/
theorem strStoresTheRegisterBlock : Obligations.StrStoresTheRegisterBlock := by
  refine ⟨fun x => decodeWord_encode (.str x), fun _ => rfl, fun s x => ⟨fun h => ?_, fun h => ?_⟩⟩
  · refine ⟨s.completed (.str x), exec_of_haltTable_none (if_neg (Nat.not_lt.2 h)), fun r hr => ?_, fun a ha => ?_,
      s.completed_pc_toNat (.str x), (s.withRam_sameBut _).setPc _⟩
    · rw [State.ramByte_completed_str h, if_pos (by omega), Nat.add_sub_cancel_left, BitVec.ofNat_toNat,
        BitVec.setWidth_eq]
    · rw [State.ramByte_completed_str h, if_neg (by omega)]
  · exact haltsWith_of_haltTable (if_pos h)

/-- What the registers hold after a completed LDR (R149). -/
theorem State.reg_completed_ldr (s : State) (x r : Nibble) : (s.completed (.ldr x)).reg r =
    if r.toNat < x.toNat + 1 then s.ramByte (s.blockBase + r.toNat) else s.reg r :=
  s.reg_loadBlock s.blockBase (x.toNat + 1) r x.isLt

theorem State.withV_sameBut (s : State) (v : Vector Byte 16) : SameBut [.regs] s { s with v := v } := by
  intro p hp
  have hsame := p.same_refl s
  cases p with
  | regs => exact absurd List.mem_cons_self hp
  | _ => exact hsame

/-- Settles O56: with the last address in RAM no halt is tabled and the block is loaded; else the halt is tabled. -/
theorem ldrLoadsTheRegisterBlock : Obligations.LdrLoadsTheRegisterBlock := by
  refine ⟨fun x => decodeWord_encode (.ldr x), fun s x => ⟨fun h => ?_, fun h => ?_⟩⟩
  · exact ⟨s.completed (.ldr x), exec_of_haltTable_none (if_neg (Nat.not_lt.2 h)),
      fun r hr => (s.reg_completed_ldr x r).trans (if_pos (Nat.lt_succ_of_le hr)),
      fun r hr => (s.reg_completed_ldr x r).trans (if_neg (Nat.not_lt.2 hr)),
      s.completed_pc_toNat (.ldr x), (s.withV_sameBut _).setPc _⟩
  · exact haltsWith_of_haltTable (if_pos h)

/-- Settles O57: the addresses the store writes are the addresses the load reads. -/
theorem strThenLdrRoundTrips : Obligations.StrThenLdrRoundTrips := by
  intro s t u x hin hstr hi hparams hram
  obtain ⟨-, -, hstore⟩ := strStoresTheRegisterBlock
  obtain ⟨-, hload⟩ := ldrLoadsTheRegisterBlock
  obtain ⟨t', hstr', hstored, -⟩ := (hstore s x).1 hin
  cases hstr.symm.trans hstr'
  obtain ⟨w, hldr, hloaded, -⟩ := (hload u x).1 (by rwa [hparams, hi])
  refine ⟨w, hldr, fun r hr => ?_⟩
  calc w.reg r
    _ = u.ramByte (u.params.regblockBias + u.i.toNat + r.toNat) := hloaded r hr
    _ = t.ramByte (s.blockBase + r.toNat) := by rw [hram, hparams, hi]; rfl
    _ = s.reg r := hstored r hr

end Sys2Proof.Machine
end

section
/-! SUPPORT. What a step that takes an input leaves, the host's moves on a Stopped or a Running machine, an iteration
with the stop request in it, and a fetch outside RAM; then the settled statements of spec/50_execution_loop.md. -/

namespace Sys2Proof.Machine

/-! ## Taking an input -/

/-- One change after another lets the pieces of both differ. -/
theorem SameBut.append {parts parts' : List Part} {s t u : State} (h : SameBut parts s t) (h' : SameBut parts' t u) :
    SameBut (parts' ++ parts) s u :=
  (h.mono (List.subset_append_right ..)).trans (h'.mono (List.subset_append_left ..))

theorem State.inputTaken_sameBut (s : State) : SameBut [.strobes, .inputs] s s.inputTaken := by
  rw [State.inputTaken_eq]
  intro p hp
  have hsame := p.same_refl s
  cases p with
  | strobes | inputs => exact absurd hp (by decide)
  | _ => exact hsame

/-- What changes once the input has been taken, and the strobes and the inputs, differ over the step (R156). -/
theorem SameBut.of_inputTaken {parts : List Part} {s t : State} (h : SameBut parts s.inputTaken t) :
    SameBut (parts ++ [.strobes, .inputs]) s t :=
  s.inputTaken_sameBut.append h

theorem State.inputTaken_silent (s : State) : s.inputTaken.silent := by
  rw [State.inputTaken_eq]
  exact ⟨rfl, rfl, rfl⟩

@[simp] theorem State.inputTaken_attached (s : State) : s.inputTaken.attached = s.attached := by
  rw [State.inputTaken_eq]

@[simp] theorem State.inputTaken_haltReason (s : State) : s.inputTaken.haltReason = s.haltReason := by
  rw [State.inputTaken_eq]

@[simp] theorem State.inputTaken_ramByte (s : State) (a : Nat) : s.inputTaken.ramByte a = s.ramByte a := by
  rw [State.inputTaken_eq]
  rfl

theorem step_of_input {s : State} {inp : HostInput} (h : s.input = inp) : step s = s.inputTaken.receive inp := by
  rw [step, h]

/-! ## The Run request -/

theorem Attached.all_eq_true_iff (a : Attached) : a.all = true ↔ a = ⟨true, true, true⟩ := by
  obtain ⟨ram, vram, display⟩ := a
  simp [Attached.all, and_assoc]

theorem State.withSetupError_sameBut (s : State) (b : Bool) : SameBut [.strobes] s { s with setupError := b } := by
  intro p hp
  have hsame := p.same_refl s
  cases p with
  | strobes => exact absurd List.mem_cons_self hp
  | _ => exact hsame

/-- Settles O10: of the three things a Run request can do, raising `setup_error`, and nothing at all. -/
theorem runRequestThatCannotStartChangesNothing : Obligations.RunRequestThatCannotStartChangesNothing := by
  constructor
  · intro s hin hrun hatt
    obtain ⟨hpresent, hframe, -⟩ := s.inputTaken_silent
    have hstep := step_of_input hin
    rw [State.receive] at hstep
    rcases s.inputTaken.runRequest_cases with ⟨hr, -⟩ | ⟨-, hall, -⟩ | ⟨-, -, he⟩
    · simp [hrun] at hr
    · simp [Attached.all_eq_true_iff, hatt] at hall
    · rw [he] at hstep
      exact ⟨_, hstep, rfl, hpresent, hframe, (s.inputTaken.withSetupError_sameBut true).of_inputTaken.mono (by decide)⟩
  · intro s hin hrun
    have hstep := step_of_input hin
    rw [State.receive] at hstep
    rcases s.inputTaken.runRequest_cases with ⟨-, he⟩ | ⟨hr, -⟩ | ⟨hr, -⟩
    · rw [he] at hstep
      exact ⟨_, hstep, s.inputTaken_silent, s.inputTaken_sameBut⟩
    · simp [hrun] at hr
    · simp [hrun] at hr

/-! ## Moves of the host that want a Stopped machine -/

theorem State.whileStopped_of_running {s : State} (r : Result) (h : s.run = true) :
    s.whileStopped r = .refused .hostMoveWhileRunning := if_pos h

theorem State.withAttached_sameBut (s : State) (a : Attached) : SameBut [.attached] s { s with attached := a } := by
  intro p hp
  have hsame := p.same_refl s
  cases p with
  | attached => exact absurd List.mem_cons_self hp
  | _ => exact hsame

theorem State.setRamByte_sameBut (s : State) (a : Nat) (b : Byte) : SameBut [.ram] s (s.setRamByte a b) := by
  rw [State.setRamByte_eq]
  exact s.withRam_sameBut _

theorem State.load_sameBut (s : State) (font program : List Byte) : SameBut [.ram] s (s.load font program) := by
  rw [State.load_eq]
  exact s.withRam_sameBut _

section Stopped

variable {s : State} (hrun : s.run = false)
include hrun

theorem step_attach_of_stopped {p : Port} (hin : s.input = .attach p) :
    step s = .next { s.inputTaken with attached := s.inputTaken.attached.add p } :=
  (step_of_input hin).trans (State.whileStopped_of_stopped _ (s.inputTaken_run.trans hrun))

theorem step_writeRam_of_stopped {a : Nat} {b : Byte} (hin : s.input = .writeRam a b) :
    step s = s.inputTaken.hostWrite a b :=
  (step_of_input hin).trans (State.whileStopped_of_stopped _ (s.inputTaken_run.trans hrun))

theorem step_load_of_stopped {font program : List Byte} (hin : s.input = .load font program) :
    step s = s.inputTaken.loadRequest font program :=
  (step_of_input hin).trans (State.whileStopped_of_stopped _ (s.inputTaken_run.trans hrun))

theorem step_resetRequest_of_stopped (hin : s.input = .resetRequest) : step s = .next s.inputTaken.resetCore :=
  (step_of_input hin).trans (State.whileStopped_of_stopped _ (s.inputTaken_run.trans hrun))

end Stopped

/-- Settles O12: while Stopped the move itself, behind the check of the address; while Running the refusal. -/
theorem hostMovesBelongToStoppedMachines : Obligations.HostMovesBelongToStoppedMachines := by
  refine ⟨fun s p hin hrun => ?_, fun s a b hin hrun => ⟨fun ha => ?_, fun ha => ?_⟩, fun s hrun hmove => ?_⟩
  · exact ⟨_, step_attach_of_stopped hrun hin, congrArg (·.add p) s.inputTaken_attached,
      (s.inputTaken.withAttached_sameBut _).of_inputTaken⟩
  · have hram : inRam a = true := (inRam_iff a).2 ha
    have hother (k : Nat) (hk : k ≠ a) : (s.inputTaken.setRamByte a b).ramByte k = s.ramByte k :=
      (s.inputTaken.ramByte_setRamByte_of_ne b hk).trans (s.inputTaken_ramByte k)
    exact ⟨_, (step_writeRam_of_stopped hrun hin).trans (if_pos hram), State.ramByte_setRamByte_self _ b hram, hother,
      (s.inputTaken.setRamByte_sameBut a b).of_inputTaken⟩
  · exact (step_writeRam_of_stopped hrun hin).trans (if_neg (mt (inRam_iff a).1 (Nat.not_le.2 ha)))
  · have hrun' : s.inputTaken.run = true := s.inputTaken_run.trans hrun
    rcases hmove with ⟨p, hin⟩ | ⟨a, b, hin⟩ | ⟨font, program, hin⟩ | hin <;>
      exact (step_of_input hin).trans (State.whileStopped_of_running _ hrun')

/-! ## The loader -/

section Load

variable {font program : List Byte} (s : State) (h : launchWellFormed font program = true)
include h

/-- The font ends below the program, which is written after it (R167). -/
theorem State.ramByte_load_font {k : Nat} (hk : k < font.length) : (s.load font program).ramByte k = font[k] := by
  obtain ⟨hfont, -⟩ := (launchWellFormed_iff font program).1 h
  exact (s.ramByte_load h k).trans ((dif_neg (by omega)).trans (dif_pos hk))

theorem State.ramByte_load_program {k : Nat} (hk : k < program.length) :
    (s.load font program).ramByte (0x200 + k) = program[k] := by
  refine (s.ramByte_load h _).trans ((dif_pos ⟨Nat.le_add_right .., Nat.add_lt_add_left hk _⟩).trans ?_)
  exact getElem_congr_idx (Nat.add_sub_cancel_left ..)

theorem State.ramByte_load_outside {a : Nat} (hfont : ¬(a ≤ 0x04F))
    (hprogram : ¬(0x200 ≤ a ∧ a < 0x200 + program.length)) : (s.load font program).ramByte a = s.ramByte a := by
  obtain ⟨hlen, -⟩ := (launchWellFormed_iff font program).1 h
  exact (s.ramByte_load h a).trans ((dif_neg hprogram).trans (dif_neg (by omega)))

end Load

/-- Settles O11: while Stopped a load is the check of the two lengths, then the two writes. -/
theorem loaderWritesFontAndProgram : Obligations.LoaderWritesFontAndProgram := by
  intro s font program hin hrun
  have hstep := step_load_of_stopped hrun hin
  have hiff := launchWellFormed_iff font program
  refine ⟨fun hlen => ?_, fun hlen => hstep.trans (if_neg (mt hiff.1 hlen))⟩
  have hl := hiff.2 hlen
  exact ⟨_, hstep.trans (if_pos hl), fun _ => State.ramByte_load_font _ hl, fun _ => State.ramByte_load_program _ hl,
    fun a hfont hprogram => (State.ramByte_load_outside _ hl hfont hprogram).trans (s.inputTaken_ramByte a),
    (s.inputTaken.load_sameBut font program).of_inputTaken⟩

/-! ## An iteration of a Stopped machine -/

theorem State.iterate_of_cleanlyStopped {s : State} (h : s.cleanlyStopped) (tmr cpu stop : Bool) (rnd : Byte) :
    s.iterate tmr cpu stop rnd = .next s := by
  obtain ⟨hrun, hreason⟩ := h
  rw [State.iterate, if_neg (Bool.not_eq_true _ ▸ hrun), if_pos hreason]

theorem State.iterate_of_halted {s : State} (h : s.halted) (tmr cpu stop : Bool) (rnd : Byte) :
    s.iterate tmr cpu stop rnd = .fault (.halted s.haltReason) := by
  obtain ⟨hrun, hreason⟩ := h
  rw [State.iterate, if_neg (Bool.not_eq_true _ ▸ hrun), if_neg hreason]

/-- Settles O13: taking the input leaves the machine as it had stopped, and the iteration asked of it is none. -/
theorem stoppedMachineRunsNothing : Obligations.StoppedMachineRunsNothing := by
  intro s tmr cpu stop rnd hin
  have hstep : step s = s.inputTaken.iterate tmr cpu stop rnd := step_of_input hin
  refine ⟨fun hstopped => ?_, fun hhalted => ?_⟩
  · have hstopped' : s.inputTaken.cleanlyStopped := by simpa [State.cleanlyStopped] using hstopped
    exact ⟨_, hstep.trans (State.iterate_of_cleanlyStopped hstopped' ..), s.inputTaken_silent, s.inputTaken_sameBut⟩
  · have hhalted' : s.inputTaken.halted := by simpa [State.halted] using hhalted
    rw [hstep, State.iterate_of_halted hhalted', State.inputTaken_haltReason]

/-! ## The stop request -/

/-- Writing RUN after other changes lets RUN differ too. -/
theorem SameBut.withRun {parts : List Part} {s t : State} (h : SameBut parts s t) (b : Bool) :
    SameBut (parts ++ [.run]) s { t with run := b } := by
  intro p hp
  obtain ⟨hparts, hrun⟩ := not_or.1 (mt List.mem_append.2 hp)
  have hsame := h p hparts
  cases p with
  | run => exact absurd List.mem_cons_self hrun
  | _ => exact hsame

/-- RUN is not read: completing a stopped machine's instruction is completing it, then stopped (R162). -/
theorem State.completed_stopRequest (s : State) (i : Instr) :
    s.stopRequest.completed i = (s.completed i).stopRequest := by
  cases i with
  | bcd x =>
    exact congrArg (fun m => State.advance { s.stopRequest with ram := m })
      (State.setRamBytes_ram_congr (s := s) (t := s.stopRequest) _ (s.dataAddr 0) rfl)
  | str x =>
    exact congrArg (fun m => State.advance { s.stopRequest with ram := m })
      (State.storeBlock_ram_congr (s := s) (t := s.stopRequest) rfl rfl s.blockBase _)
  | ldr x =>
    exact congrArg (fun v => State.advance { s.stopRequest with v := v })
      (State.loadBlock_v_congr (s := s) (t := s.stopRequest) rfl rfl s.blockBase _)
  | _ => rfl

theorem haltTable_stopRequest (s : State) (i : Instr) : haltTable s.stopRequest i = haltTable s i := by
  cases i <;> rfl

theorem exec_stopRequest (i : Instr) (s : State) : exec i s.stopRequest = mapNext State.stopRequest (exec i s) :=
  exec_update (haltTable_stopRequest s i) (fun _ => rfl) (s.completed_stopRequest i)

/-- A fetch with PC beyond the last word of RAM halts, OPCODE as it was (R159). -/
theorem State.instrStep_eq_halt_of_pc {s : State} (hpc : s.pc.toNat > 0xFFE) :
    s.instrStep = .next (s.halt .addrOutOfRange) := by
  rcases State.instrStep_cases (s := s) rfl with ⟨-, hr⟩ | ⟨hin, -⟩
  · exact hr
  · omega

/-- Neither the fetch, a halt nor an instruction reads RUN (R162). -/
theorem State.instrStep_stopRequest (s : State) :
    s.stopRequest.instrStep = mapNext State.stopRequest s.instrStep := by
  rcases Nat.lt_or_ge 0xFFE s.pc.toNat with hpc | hpc
  · rw [State.instrStep_eq_halt_of_pc hpc]
    exact State.instrStep_eq_halt_of_pc (s := s.stopRequest) hpc
  · cases hword : decodeWord s.wordAtPc with
    | error e =>
      rw [State.instrStep_eq_halt hpc hword]
      exact State.instrStep_eq_halt (s := s.stopRequest) hpc hword
    | ok i =>
      rw [State.instrStep_eq_exec hpc hword]
      exact (State.instrStep_eq_exec (s := s.stopRequest) hpc hword).trans
        (exec_stopRequest i { s with opcode := s.wordAtPc })

theorem closeGate_mapNext_stopRequest (r : Result) :
    closeGate (mapNext State.stopRequest r) = mapNext State.stopRequest (closeGate r) := by
  cases r <;> rfl

/-- Sampling with a stop request is sampling without it, then stopped (R162). -/
theorem State.sample_stop (s : State) (tmr cpu : Bool) (rnd : Byte) :
    s.sample tmr cpu true rnd = (s.sample tmr cpu false rnd).stopRequest := by
  rw [State.sample_eq, State.sample_eq, State.stopRequest, Bool.not_true, Bool.and_false]

/-- An iteration of a Running machine with a stop request in it is the iteration without it, then stopped (R162). -/
theorem State.iterate_stop {s : State} (hrun : s.run = true) (tmr cpu : Bool) (rnd : Byte) :
    s.iterate tmr cpu true rnd = mapNext State.stopRequest (s.iterate tmr cpu false rnd) := by
  rw [State.iterate, State.iterate, if_pos hrun, if_pos hrun, State.sample_stop]
  simp only [State.stopRequest_gate, State.instrStep_stopRequest, closeGate_mapNext_stopRequest]
  split <;> rfl

/-- Settles O16: between iterations the request is RUN alone; inside one, nothing that follows it reads RUN. -/
theorem stopRequestLetsTheIterationFinish : Obligations.StopRequestLetsTheIterationFinish := by
  constructor
  · intro s hin
    exact ⟨_, step_of_input hin, rfl, ((SameBut.refl _).withRun false).of_inputTaken⟩
  · intro s t tmr cpu rnd rest hrun h
    have hstep (stop : Bool) : step { s with inputs := .iterate tmr cpu stop rnd :: rest } =
        (s.taken rest).receive (.iterate tmr cpu stop rnd) := step_of_inputs rfl
    rw [hstep, State.receive] at h ⊢
    rw [State.iterate_stop (s := s.taken rest) hrun, h]
    rfl

/-! ## Fetch outside RAM; tick before instruction -/

/-- Settles O19: the sampled state halts in its fetch, and the gate closes behind the halt. -/
theorem fetchOutsideRamHalts : Obligations.FetchOutsideRamHalts := by
  intro s tmr cpu stop rnd hexec hpc
  have hpc' : (s.sampled tmr cpu stop rnd).pc.toNat > 0xFFE := by simpa using hpc
  have hopcode : (s.sampled tmr cpu stop rnd).opcode = s.opcode :=
    s.sampled_sameBut tmr cpu stop rnd .opcode (by decide)
  have hsame := (s.sampled_sameBut tmr cpu stop rnd).haltGateClosed .addrOutOfRange
  exact ⟨_, (step_of_executes hexec).trans (congrArg closeGate (State.instrStep_eq_halt_of_pc hpc')),
    ⟨rfl, s.sampled_pc tmr cpu stop rnd, hopcode, rfl⟩, rfl, s.sampled_tickPerformed tmr cpu stop rnd,
    hsame.mono (by decide)⟩

/-- Settles O21: GDELAY completes in the sampled state, whose DT the tick has counted down. -/
theorem tickComesBeforeTheInstruction : Obligations.TickComesBeforeTheInstruction := by
  intro s cpu stop rnd x hexec hpc hword
  have htick := s.sampled_tickPerformed true cpu stop rnd
  have hpc' : (s.sampled true cpu stop rnd).pc.toNat ≤ 0xFFE := by simpa using hpc
  have hi : decodeWord (s.sampled true cpu stop rnd).wordAtPc = .ok (.gdelay x) := by
    rw [State.sampled_wordAtPc, hword]
    exact decodeWord_encode (.gdelay x)
  have hstep := (step_of_executes hexec).trans (congrArg closeGate (State.instrStep_eq_exec hpc' hi))
  refine ⟨_, hstep, ?_, htick, rfl, ?_⟩
  · obtain ⟨-, -, -, hdt⟩ := htick
    exact (congrArg BitVec.toNat (State.reg_setReg_self ..)).trans hdt
  · have hsum : (s.pc + 2#16).toNat = s.pc.toNat + 2 := by bv_omega
    exact (congrArg (fun pc => (pc + 2#16).toNat) (s.sampled_pc true cpu stop rnd)).trans hsum

end Sys2Proof.Machine
end

section
/-! SUPPORT. What a completing instruction may touch; then the settled statement of spec/60_exceptions.md. -/

namespace Sys2Proof.Machine

/-- Completing touches neither OPCODE, RUN, GATE, the halt registers nor the lines of the interface (R177). -/
theorem State.completed_sameBut (s : State) (i : Instr) :
    SameBut [.regs, .i, .pc, .stack, .dt, .st, .ram, .vram] s (s.completed i) := by
  rw [State.completed_eq]
  intro p hp
  have hsame := p.same_refl s
  cases p with
  | regs | i | pc | stack | dt | st | ram | vram => exact absurd hp (by decide)
  | _ => exact hsame

/-- Settles O25: with a code in the table the halt entry with that code, else the completion. -/
theorem haltsAreExactlyTheTabledOnes : Obligations.HaltsAreExactlyTheTabledOnes := fun i s =>
  ⟨fun _ => haltsWith_of_haltTable, fun hn => ⟨s.completed i, exec_of_haltTable_none hn, s.completed_sameBut i⟩⟩

end Sys2Proof.Machine
end

section
/-! SUPPORT. What the reset leaves; then the settled statement of spec/70_reset_and_hazards.md. -/

namespace Sys2Proof.Machine

/-- `Reset()` leaves RAM, RUN, the attachments, the strobes, the parameters and the inputs (R195). -/
theorem State.resetCore_sameBut (s : State) :
    SameBut [.regs, .i, .pc, .stack, .dt, .st, .opcode, .gate, .haltRegs, .vram] s s.resetCore := by
  intro p hp
  have hsame := p.same_refl s
  cases p with
  | ram | run | attached | strobes | params | inputs => exact hsame
  | _ => exact absurd hp (by decide)

/-- A Run request while Stopped with everything attached is the reset, then RUN set (R157). -/
theorem step_runRequest_of_attached {s : State} (hin : s.input = .runRequest) (hrun : s.run = false)
    (hatt : s.attached = ⟨true, true, true⟩) : step s = .next { s.inputTaken.resetCore with run := true } := by
  rw [step_of_input hin, State.receive]
  rcases s.inputTaken.runRequest_cases with ⟨hr, -⟩ | ⟨-, -, he⟩ | ⟨-, hall, -⟩
  · simp [hrun] at hr
  · rw [he]
  · simp [hatt, Attached.all] at hall

/-- Settles O9: both requests perform the reset; the Run request sets RUN after it. -/
theorem resetWritesEveryRegisterAndNotRam : Obligations.ResetWritesEveryRegisterAndNotRam := by
  constructor
  · intro s hin hrun hatt
    exact ⟨_, step_runRequest_of_attached hin hrun hatt, s.inputTaken.resetCore_withRun_atReset, rfl,
      (s.inputTaken.resetCore_sameBut.withRun true).of_inputTaken⟩
  · intro s hin hrun
    exact ⟨_, step_resetRequest_of_stopped hrun hin, s.inputTaken.resetCore_atReset,
      s.inputTaken.resetCore_sameBut.of_inputTaken⟩

end Sys2Proof.Machine
end
